-- ==== Sys2Proof/Word.lean ====
section
/-! DEFINITION. The widths the spec fixes (00_scope.md R5, R6): every value the spec adds, shifts, masks or
moves over the bus is a bit vector of its own width. -/

namespace Sys2Proof

/-- One byte of a byte store, or of a message or text. -/
abbrev Byte := BitVec 8

/-- The host data bus, a register, a command word, a handle (R5: data bus 32 bits, handle 32 bits). -/
abbrev Word := BitVec 32

/-- A host offset: 12 bits, 4 KiB (R5, R71). -/
abbrev Offset := BitVec 12

/-- A 64-bit DES block (R5). -/
abbrev Block := BitVec 64

/-- A 64-bit key (R5). -/
abbrev Key := BitVec 64

/-- A 48-bit round subkey (R5, R50). -/
abbrev Subkey := BitVec 48

/-- A 28-bit half of the key schedule, C or D (R51, R122). -/
abbrev KeyHalf := BitVec 28

/-- A 32-bit half of the Feistel engine, L or R (R51, R154). -/
abbrev Half := BitVec 32

/-- A slot's generation counter: 28 bits (R5, R45). -/
abbrev Gen := BitVec 28

/-- The subkey file SK[1..16]; SK[i] is entry i-1 (R50, R126). -/
abbrev Schedule := Vector Subkey 16

end Sys2Proof
end

