-- ==== Sys2Proof/Config.lean ====
section
/-! DEFINITION. The implementation parameters of 00_scope.md R5. A model takes each as an argument: the
configuration is a value that State carries and no step changes (notes/assumptions/2.md). LATENCY, the third
parameter, is a draw per command and stands in State's list of turns (notes/assumptions/1.md). The derived sizes
of R5 are functions of it, in Machine/Operands.lean. -/

namespace Sys2Proof

/-- MAX_BLOCKS and NUM_SLOTS (R5, R53: configuration, not state). -/
structure Config where
  /-- Largest number of 8-byte blocks one ENC or DEC handles: 1 to 64. -/
  maxBlocks : Nat
  /-- Number of result slots: 1 to 15. -/
  numSlots : Nat
  deriving DecidableEq, Repr

namespace Config

/-- The reference configuration, the one the spec's vectors use (R5). -/
def reference : Config := { maxBlocks := 32, numSlots := 4 }

end Config

end Sys2Proof
end

