-- ==== Sys2Proof/Syntax.lean ====
section
/-! DEFINITION. What can be written down and given to the machine: the seven commands (30_encoding.md R101,
opcode_table.json), the host's bus transactions (20_memory.md R71), the moves of the agents in the order in which
they happen (20_memory.md R85), and the host notation of 30_encoding.md R106 and R107. -/

namespace Sys2Proof

/-- The commands of opcode_table.json. A command word carries no operand (R100, R103), so no constructor has one. -/
inductive Instr where
  /-- ENC (0x00000001, R192). -/
  | enc
  /-- DEC (0x00000002, R193). -/
  | dec
  /-- ENCB (0x00000003, R194). -/
  | encb
  /-- DECB (0x00000004, R195). -/
  | decb
  /-- SEL (0x00000005, R196). -/
  | sel
  /-- REL (0x00000006, R197). -/
  | rel
  /-- CLR (0x00000007, R198). -/
  | clr
  deriving DecidableEq, Repr

/-- The transaction sizes the bus can express: 1, 2 or 4 bytes (R71). -/
inductive Size where
  | one
  | two
  | four
  deriving DecidableEq, Repr

/-- A host transaction (R71). -/
inductive Xact where
  | read (offset : Offset) (size : Size)
  | write (offset : Offset) (size : Size) (wdata : Word)
  deriving DecidableEq, Repr

/-- One move of the interleaving (R10, R85): who moves next, and with what. -/
inductive Turn where
  /-- The host performs one bus transaction (R71). -/
  | host (x : Xact)
  /-- The core sequencer takes its step, where it has one (R10, R226). -/
  | core
  /-- The platform asserts the reset input (R250). -/
  | assertReset
  /-- The platform deasserts the reset input (R250). -/
  | deassertReset
  /-- The host claims to free a result by a path other than REL (93_implementation_defined.md U1). -/
  | freeElsewhere (handle : Word)
  deriving DecidableEq, Repr

/-- The response of the bus (R71). -/
inductive Resp where
  | okay
  | error
  deriving DecidableEq, Repr

/-- What a transaction is answered with: `(rdata, resp)` for a read, `resp` for a write (R71). -/
inductive Reply where
  | read (rdata : Word) (resp : Resp)
  | write (resp : Resp)
  deriving DecidableEq, Repr

/-- The internal byte stores that `MemRead` and `MemWrite` name (R9, R70), each indexed from 0. -/
inductive Space where
  | keyb
  | din
  | dout
  | ibuf
  | slot (s : Nat)
  deriving DecidableEq, Repr

/-- A line of a host program: the four transaction forms of R106 and the pseudo-instructions of R107. -/
inductive HostLine where
  | w32 (off : Offset) (imm : Word)
  | w8 (off : Offset) (imm : Byte)
  | r32 (off : Offset)
  | r8 (off : Offset)
  | cmd (i : Instr)
  | key (k : Key)
  | keylen (n : Word)
  | din (b : Block)
  | text (s : List Byte)
  /-- `polls` is the number of STATUS reads that fall before the completion: the open latency. -/
  | wait (polls : Nat)
  | clrdone
  deriving DecidableEq, Repr

end Sys2Proof
end

