-- ==== Sys2Proof/WellFormed.lean ====
section
/-! DEFINITION. The checks that syntax and configuration must pass. A command has no operand field, so a command
that can be written down is well formed; an illegal WORD is no command and is rejected by Decode. -/

namespace Sys2Proof

/-- A configuration of 00_scope.md R5: MAX_BLOCKS 1 to 64, NUM_SLOTS 1 to 15. -/
def Config.legal (c : Config) : Bool :=
  decide (1 ≤ c.maxBlocks) && decide (c.maxBlocks ≤ 64)
    && decide (1 ≤ c.numSlots) && decide (c.numSlots ≤ 15)

/-- Every command is well formed: it is one of the seven and carries no operand (R100, R101). -/
def Instr.wellFormed : Instr → Bool
  | .enc | .dec | .encb | .decb | .sel | .rel | .clr => true

/-- A line of R106 or R107 denotes transactions inside the 4 KiB window: a TEXT may not run past the IBUF window
0x400 to 0x7FF (R21). Every other line's operands are bounded by their types. -/
def HostLine.wellFormed : HostLine → Bool
  | .text s => decide (s.length ≤ 1024)
  | .w32 _ _ | .w8 _ _ | .r32 _ | .r8 _ | .cmd _ | .key _ | .keylen _ | .din _ | .wait _ | .clrdone => true

end Sys2Proof
end

