-- ==== Sys2Proof/Decode.lean ====
section
/-! DEFINITION. From a command word to a command, total over all 2^32 words (30_encoding.md R100 to R102, R108),
and back. A command word is written to CMD whole, as one 32-bit transaction (20_memory.md R72, R73), so the
decoder takes the word itself. -/

namespace Sys2Proof

/-- Why a word is illegal (R102). Both reasons end in IllegalCommand (43_commands.md R199). -/
inductive DecodeError where
  /-- Some bit of RSV, bits 31:8, is set. -/
  | reservedBits
  /-- RSV is 0 and OP is 0x00 or 0x08 to 0xFF. -/
  | reservedOp
  deriving DecidableEq, Repr

/-- OP, bits 7:0 (R100). -/
def opField (w : Word) : BitVec 8 := w.extractLsb' 0 8

/-- RSV, bits 31:8 (R100). -/
def rsvField (w : Word) : BitVec 24 := w.extractLsb' 8 24

/-- Decoding of a command word (R101, R102). -/
def decode (w : Word) : Except DecodeError Instr :=
  if rsvField w ≠ 0 then .error .reservedBits
  else if opField w = 0x01 then .ok .enc
  else if opField w = 0x02 then .ok .dec
  else if opField w = 0x03 then .ok .encb
  else if opField w = 0x04 then .ok .decb
  else if opField w = 0x05 then .ok .sel
  else if opField w = 0x06 then .ok .rel
  else if opField w = 0x07 then .ok .clr
  else .error .reservedOp

/-- The operation code of a command (R101). -/
def opcode : Instr → BitVec 8
  | .enc  => 0x01
  | .dec  => 0x02
  | .encb => 0x03
  | .decb => 0x04
  | .sel  => 0x05
  | .rel  => 0x06
  | .clr  => 0x07

/-- The word of a command: RSV = 0 above OP (R100, R101). -/
def encode (i : Instr) : Word := (0 : BitVec 24) ++ opcode i

/-- A legal word: `w[31:8] = 0` and `w[7:0] ∈ 0x01..0x07` (R102). -/
def legalWord (w : Word) : Bool :=
  decide (w.extractLsb' 8 24 = 0) && decide (1 ≤ (w.extractLsb' 0 8).toNat) && decide ((w.extractLsb' 0 8).toNat ≤ 7)

/-- The command the decoder reads from the word whose low `nbits` bits are those of `w` and whose other bits are 0,
numbered as opcode_table.json numbers them. -/
def decodeTableWord (nbits w : Nat) : Option Instr :=
  match decode (BitVec.ofNat 32 (w % 2 ^ nbits)) with
  | .ok i => some i
  | .error _ => none

end Sys2Proof
end

