-- ==== Sys2Proof/Machine/State.lean ====
section
/-! DEFINITION. The state of the DES core as 10_state.md R20 lists it, the four fields that are the model's own
(configuration, reset input, turns, replies), the reasons a step can stop, and the state after hardware reset
(10_state.md R65). -/

namespace Sys2Proof.Machine

/-- A byte store: the (index, byte) pairs that differ from 0x00, indices strictly rising. An index that is not
listed reads 0x00, the reset content R65 gives every byte store (notes/assumptions/9.md). -/
abbrev Memory := List Host.Cell

/-- The errors a command can raise (60_exceptions.md R221, codes 1 to 7). -/
inductive CmdError where
  | invalidKeyLength
  | inputTooLong
  | malformedEncoding
  | doubleRelease
  | useAfterRelease
  | illegalCommand
  | noFreeHandle
  deriving DecidableEq, Repr

/-- STATE of a result slot (R45). -/
inductive SlotState where
  | free
  | live
  deriving DecidableEq, Repr

/-- A result slot (R45). -/
structure Slot where
  state : SlotState
  gen   : Gen
  len   : BitVec 16
  buf   : Memory
  deriving DecidableEq, Repr

/-- A slot never allocated since hardware reset (R45, R65). -/
def Slot.initial : Slot := { state := .free, gen := 0, len := 0, buf := [] }

/-- The hidden working state: the subkey file (R50) and the working registers (R51). -/
structure Engine where
  /-- SK[1..16] (R50). -/
  sk      : Schedule
  /-- C, the left key schedule half (R51). -/
  c       : KeyHalf
  /-- D, the right key schedule half (R51). -/
  d       : KeyHalf
  /-- L, the left Feistel half (R51). -/
  l       : Half
  /-- R, the right Feistel half (R51). -/
  r       : Half
  /-- The round counter (R51): 1 to 16 within a block, 0 when idle. -/
  round   : Nat
  /-- The block counter (R51). -/
  block   : Nat
  /-- The scratch store for ciphertext or plaintext blocks (R51). -/
  scratch : List Byte
  deriving DecidableEq, Repr

/-- Every hidden register zero: reset (R65), and whenever BUSY = 0 (R50, R51, 40_key_schedule.md R128). -/
def Engine.zero : Engine :=
  { sk := Vector.replicate 16 0, c := 0, d := 0, l := 0, r := 0, round := 0, block := 0, scratch := [] }

/-- Reasons the machine stops with a fault. A command never raises one (60_exceptions.md R220). -/
inductive Fault where
  /-- Raised by a host turn while the reset input is asserted: 93_implementation_defined.md U6 calls this "stuck
  (no move)", the platform's duty. Safe: the model stops where the hardware's behaviour is not given. -/
  | hostDuringReset
  deriving DecidableEq, Repr

/-- Reasons a step is refused. -/
inductive Refusal where
  /-- An instruction without a meaning yet, raised only by an arm of exec. Safe. -/
  | notModelled (mnemonic : String)
  /-- Raised by a `freeElsewhere` turn: 93_implementation_defined.md U1 says that a host program that claims to free
  a result any way but REL "is refused by name". Safe: the model stops. -/
  | crossAllocatorRelease
  deriving DecidableEq, Repr

/-- The machine (R20), with the model's own four fields last but for `cfg`. -/
structure State where
  /-- Model's own: the configuration (00_scope.md R5, R53). No step changes it. -/
  cfg     : Config
  /-- CTRL.IRQ_EN (R24). -/
  irqEn   : Bool
  /-- STATUS.BUSY (R25, R26). -/
  busy    : Bool
  /-- STATUS.DONE (R25, R27). -/
  done    : Bool
  /-- STATUS.WERR (R25, R28). -/
  werr    : Bool
  /-- STATUS.ERRCODE (R25, R29); `none` is code 0. -/
  errcode : Option CmdError
  /-- KEYLEN (R31). -/
  keylen  : Word
  /-- MLEN (R32). -/
  mlen    : Word
  /-- HARG (R33). -/
  harg    : Word
  /-- RHANDLE (R34). -/
  rhandle : Word
  /-- RLEN bits 15:0; bits 31:16 read 0 (R35). -/
  rlen    : BitVec 16
  /-- KEYB[0..7] (R37). -/
  keyb    : Memory
  /-- DIN[0..7] (R38). -/
  din     : Memory
  /-- DOUT[0..7] (R39). -/
  dout    : Memory
  /-- IBUF[0..IBUF_BYTES-1] (R40). -/
  ibuf    : Memory
  /-- SLOT[0..NUM_SLOTS-1] (R45). -/
  slots   : List Slot
  /-- SELV (R48). -/
  selv    : Bool
  /-- SELH (R48). -/
  selh    : Word
  /-- PCMD (R52). -/
  pcmd    : Word
  /-- SK and the working registers (R50, R51). -/
  eng     : Engine
  /-- Model's own: the reset input is asserted (70_reset_and_hazards.md R250). -/
  inReset : Bool
  /-- Model's own: the moves still to come, in order. A FREE VALUE: the open latency and the open placement of the
  completion (R5, R85, R262) are in it, and nothing constrains it (notes/assumptions/1.md). -/
  turns   : List Turn
  /-- Model's own: the answers the host has received, newest first (R71). -/
  replies : List Reply
  deriving DecidableEq, Repr

/-- The state after hardware reset of a block of configuration `cfg` (R65, R250). -/
def State.resetOf (cfg : Config) : State :=
  { cfg := cfg
    irqEn := false
    busy := false, done := false, werr := false, errcode := none
    keylen := 0, mlen := 0, harg := 0
    rhandle := 0, rlen := 0
    keyb := [], din := [], dout := [], ibuf := []
    slots := List.replicate cfg.numSlots Slot.initial
    selv := false, selh := 0
    pcmd := 0
    eng := Engine.zero
    inReset := false, turns := [], replies := [] }

/-- The machine right after hardware reset, in the reference configuration (R5, R65). -/
def State.reset : State := State.resetOf Config.reference

end Sys2Proof.Machine
end

