-- ==== Sys2Proof/Machine/Ops.lean ====
section
/-! DEFINITION. The shared operations: byte stores (00_scope.md R9 MemRead and MemWrite), the acceptance of a command
word (43_commands.md R190), the end of a command (60_exceptions.md R226, which is also what an error is here: R220,
R229), and the slot file (43_commands.md R197, R200). The block has no trap entry and no return from one (R229, R230):
`raiseError` is the whole of what an error does. -/

namespace Sys2Proof.Machine

/-! ### Byte stores -/

/-- What an index that is not listed reads as: the reset content of every byte store (10_state.md R65). -/
def Memory.unlisted : Byte := 0x00

/-- The canonical form: indices strictly rising, and no entry equal to what an unlisted index reads as. -/
abbrev Memory.wf (m : Memory) : Prop :=
  m.Pairwise (fun p q => p.1 < q.1) ∧ ∀ c ∈ m, c.2 ≠ Memory.unlisted

/-- Every listed index is below `n`. -/
abbrev Memory.within (n : Nat) (m : Memory) : Prop := ∀ c ∈ m, c.1 < n

/-- One byte. -/
def Memory.read : Memory → Nat → Byte
  | [], _ => Memory.unlisted
  | (k, v) :: m, a => if a = k then v else Memory.read m a

/-- Writing one byte, keeping the canonical form. -/
def Memory.write : Memory → Nat → Byte → Memory
  | [], a, b => if b = Memory.unlisted then [] else [(a, b)]
  | (k, v) :: m, a, b =>
    if a < k then (if b = Memory.unlisted then (k, v) :: m else (a, b) :: (k, v) :: m)
    else if a = k then (if b = Memory.unlisted then m else (a, b) :: m)
    else (k, v) :: Memory.write m a b

/-- The `n` bytes from index `a` up, lowest index first (R9). -/
def Memory.readBytes (m : Memory) (a n : Nat) : List Byte :=
  (List.range n).map fun i => Memory.read m (a + i)

/-- The bytes `bs` written from index `a` up (R9). -/
def Memory.writeBytes : Memory → Nat → List Byte → Memory
  | m, _, [] => m
  | m, a, b :: bs => Memory.writeBytes (Memory.write m a b) (a + 1) bs

/-- A store that holds `bs` from index `a` up and 0x00 everywhere else. -/
def Memory.ofBytesFrom : Nat → List Byte → Memory
  | _, [] => []
  | a, b :: bs =>
    if b = Memory.unlisted then Memory.ofBytesFrom (a + 1) bs else (a, b) :: Memory.ofBytesFrom (a + 1) bs

/-- `text ‖ 0x00 ‖ 0x00 × ...`: the bytes from index 0 and 0x00 after them (42_formatter.md R179). -/
def Memory.ofBytes (bs : List Byte) : Memory := Memory.ofBytesFrom 0 bs

/-- The byte store a space names (R9, R70). A slot that does not exist holds nothing. -/
def State.store (s : State) : Space → Memory
  | .keyb => s.keyb
  | .din => s.din
  | .dout => s.dout
  | .ibuf => s.ibuf
  | .slot i => (s.slots.getD i Slot.initial).buf

/-- The state with the byte store of a space replaced. -/
def State.setStore (s : State) : Space → Memory → State
  | .keyb, m => { s with keyb := m }
  | .din, m => { s with din := m }
  | .dout, m => { s with dout := m }
  | .ibuf, m => { s with ibuf := m }
  | .slot i, m => { s with slots := s.slots.modify i fun sl => { sl with buf := m } }

/-- `MemRead(SPACE, a, n)` (R9). -/
def memRead (sp : Space) (a n : Nat) (s : State) : List Byte := Memory.readBytes (s.store sp) a n

/-- `MemWrite(SPACE, a, n, bytes)`, `n` the number of bytes (R9). -/
def memWrite (sp : Space) (a : Nat) (bs : List Byte) (s : State) : State :=
  s.setStore sp (Memory.writeBytes (s.store sp) a bs)

/-- One byte of a byte store: what frames and windows are said with. -/
def byteAt (s : State) (sp : Space) (a : Nat) : Byte := Memory.read (s.store sp) a

/-! ### Acceptance and the end of a command -/

/-- `accept(w)` (R190): the word is taken, BUSY set, DONE and ERRCODE cleared, and nothing else changes. -/
def accept (w : Word) (s : State) : State := { s with pcmd := w, busy := true, done := false, errcode := none }

/-- The status update that ends every command (R226). -/
def finish (e : Option CmdError) (s : State) : State := { s with busy := false, done := true, errcode := e }

/-- `complete()` (R9, R226). -/
def complete (s : State) : Host.Outcome State Fault Refusal := .next (finish none s)

/-- `raise E()` (R9, R220, R226): the error ends the command as a completion with its code, and the machine goes on. -/
def raiseError (e : CmdError) (s : State) : Host.Outcome State Fault Refusal := .next (finish (some e) s)

/-! ### The slot file -/

/-- The least index of a FREE slot, if there is one (R192, R200). -/
def freeSlot (s : State) : Option Nat := s.slots.findIdx? fun sl => decide (sl.state = .free)

/-- The generation of a slot's next allocation: one more modulo 2^28, skipping 0 (R200). -/
def nextGen (g : Gen) : Gen := if g + 1 = 0 then 1 else g + 1

/-- A handle: `GEN ‖ SLOT` (30_encoding.md R104). -/
def handleOf (g : Gen) (i : Nat) : Word := g ++ BitVec.ofNat 4 i

/-- The slot after an allocation that stores `text` (R200, 42_formatter.md R179). -/
def Slot.allocated (text : List Byte) (sl : Slot) : Slot :=
  { state := .live, gen := nextGen sl.gen, len := BitVec.ofNat 16 text.length, buf := Memory.ofBytes text }

/-- The slot after its release: FREE and empty, GEN kept (R197). -/
def Slot.released (sl : Slot) : Slot := { sl with state := .free, len := 0, buf := [] }

/-- The handle that an allocation of slot `i` returns (R200). -/
def allocHandle (i : Nat) (s : State) : Word := handleOf (nextGen (s.slots.getD i Slot.initial).gen) i

/-- `Alloc(text)` in slot `i` (R200). -/
def alloc (i : Nat) (text : List Byte) (s : State) : State :=
  { s with slots := s.slots.modify i (Slot.allocated text) }

/-- The result writes of a successful ENC or DEC: Alloc, RHANDLE and RLEN (R192, R193). -/
def storeResult (i : Nat) (text : List Byte) (s : State) : State :=
  { alloc i text s with rhandle := allocHandle i s, rlen := BitVec.ofNat 16 text.length }

/-- The release of slot `i` (R197). -/
def releaseSlot (i : Nat) (s : State) : State := { s with slots := s.slots.modify i Slot.released }

/-- `on raise` of ENC and DEC: RHANDLE and RLEN are cleared (R192, R193). -/
def clearResult (s : State) : State := { s with rhandle := 0, rlen := 0 }

/-- `on raise` of ENCB and DECB: DOUT becomes eight 0x00 bytes (R194, R195). -/
def clearDout (s : State) : State := { s with dout := [] }

/-- What every outcome of a keyed command does to the key: KEYB and KEYLEN cleared, SK and every working register
zero (R191, 40_key_schedule.md R128). -/
def consumeKey (s : State) : State := { s with keyb := [], keylen := 0, eng := Engine.zero }

end Sys2Proof.Machine
end

