-- ==== Sys2Proof/Machine/Operands.lean ====
section
/-! DEFINITION. The operand forms: derived sizes (00_scope.md R5), byte order (R8; 20_memory.md R80), the operands of
each command (30_encoding.md R103), and handles (30_encoding.md R104; 10_state.md R47). -/

namespace Sys2Proof

/-- IBUF_BYTES (R5). -/
def Config.ibufBytes (c : Config) : Nat := 16 * c.maxBlocks

/-- SLOT_BYTES (R5). -/
def Config.slotBytes (c : Config) : Nat := 16 * c.maxBlocks + 1

/-- MAX_MSG, the longest ENC message (R5). -/
def Config.maxMsg (c : Config) : Nat := 8 * c.maxBlocks - 1

/-- MAX_HEX, the longest DEC input (R5). -/
def Config.maxHex (c : Config) : Nat := 16 * c.maxBlocks

end Sys2Proof

namespace Sys2Proof.Machine

/-- `BE64`: the first byte is the most significant (R8). -/
def be64 (bs : List Byte) : BitVec 64 := BitVec.ofNat 64 (bs.foldl (fun acc b => 256 * acc + b.toNat) 0)

/-- `BYTES8`: the 8 bytes of a 64-bit value, most significant first (R8). -/
def bytes8 (v : BitVec 64) : List Byte :=
  [v.extractLsb' 56 8, v.extractLsb' 48 8, v.extractLsb' 40 8, v.extractLsb' 32 8,
   v.extractLsb' 24 8, v.extractLsb' 16 8, v.extractLsb' 8 8, v.extractLsb' 0 8]

/-- The key operand `K = BE64(KEYB[0..7])` (R37, R103). -/
def keyOperand (s : State) : Key := be64 (memRead .keyb 0 8 s)

/-- The block operand `BE64(DIN[0..7])` (R38, R103). -/
def blockOperand (s : State) : Block := be64 (memRead .din 0 8 s)

/-- The text operand `IBUF[0..MLEN-1]`, the length a full 32-bit value (R103). -/
def textOperand (s : State) : List Byte := memRead .ibuf 0 s.mlen.toNat s

/-- The slot index of a handle, bits 3:0 (R104). -/
def handleSlot (h : Word) : Nat := (h.extractLsb' 0 4).toNat

/-- The generation of a handle, bits 31:4 (R104). -/
def handleGen (h : Word) : Gen := h.extractLsb' 4 28

/-- `live(h)` (R47). The slot file has NUM_SLOTS entries, so an index at or above NUM_SLOTS finds none. -/
def live (s : State) (h : Word) : Bool :=
  match s.slots[handleSlot h]? with
  | some sl => decide (sl.state = .live) && decide (sl.gen = handleGen h)
  | none => false

/-- The slot that SELH names, as the SEL view and the OBUF window index it (R36, R41). -/
def selectedSlot (s : State) : Slot := s.slots.getD (handleSlot s.selh) Slot.initial

end Sys2Proof.Machine
end

