-- ==== Sys2Proof/Machine/HostNotation.lean ====
section
/-! DEFINITION. Host programs: a line is expanded to turns (30_encoding.md R106, R107). -/

namespace Sys2Proof.Machine

/-- `W32 off, imm32` (R106). -/
def w32 (off : Offset) (imm : Word) : Turn := .host (.write off .four imm)

/-- `W8 off, imm8`: the byte zero-extended (R106). -/
def w8 (off : Offset) (imm : Byte) : Turn := .host (.write off .one (imm.setWidth 32))

/-- `R32 off` (R106). -/
def r32 (off : Offset) : Turn := .host (.read off .four)

/-- `R8 off` (R106). -/
def r8 (off : Offset) : Turn := .host (.read off .one)

/-- The lane value of four bytes: the first in bits 7:0 (20_memory.md R73, R81). -/
def laneWord (b0 b1 b2 b3 : Byte) : Word := b3 ++ b2 ++ b1 ++ b0

/-- `L(k, 0)`: the lane value of bytes 0 to 3 of `BYTES8(k)` (R107). -/
def laneLow (k : BitVec 64) : Word :=
  laneWord (k.extractLsb' 56 8) (k.extractLsb' 48 8) (k.extractLsb' 40 8) (k.extractLsb' 32 8)

/-- `L(k, 4)`: the lane value of bytes 4 to 7 of `BYTES8(k)` (R107). -/
def laneHigh (k : BitVec 64) : Word :=
  laneWord (k.extractLsb' 24 8) (k.extractLsb' 16 8) (k.extractLsb' 8 8) (k.extractLsb' 0 8)

/-- The writes of a TEXT: W32 per full group of 4 characters, W8 per remaining one (R107). -/
def textTurns : Nat → List Byte → List Turn
  | off, b0 :: b1 :: b2 :: b3 :: rest =>
    w32 (BitVec.ofNat 12 off) (laneWord b0 b1 b2 b3) :: textTurns (off + 4) rest
  | off, b :: rest => w8 (BitVec.ofNat 12 off) b :: textTurns (off + 1) rest
  | _, [] => []

/-- The turns of a line (R106, R107). WAIT is its STATUS reads, the completion falling before the last of them; how
many come before it is the open latency, `polls` (notes/assumptions/8.md). -/
def expandLine : HostLine → List Turn
  | .w32 off imm => [w32 off imm]
  | .w8 off imm => [w8 off imm]
  | .r32 off => [r32 off]
  | .r8 off => [r8 off]
  | .cmd i => [w32 0x010 (encode i)]
  | .key k => [w32 0x030 (laneLow k), w32 0x034 (laneHigh k)]
  | .keylen n => [w32 0x014 n]
  | .din b => [w32 0x038 (laneLow b), w32 0x03C (laneHigh b)]
  | .text s => textTurns 0x400 s ++ [w32 0x018 (BitVec.ofNat 32 s.length)]
  | .wait polls => List.replicate polls (r32 0x00C) ++ [.core, r32 0x00C]
  | .clrdone => [w32 0x00C 0x00000002]

/-- The turns of a host program (R106). -/
def expandProgram (p : List HostLine) : List Turn := p.flatMap expandLine

end Sys2Proof.Machine
end

