-- ==== Sys2Proof/Machine/Flags.lean ====
section
/-! DEFINITION. The words the host sees of flags and views: error codes (60_exceptions.md R221), STATUS and its
write-one-to-clear bits (10_state.md R25), CTRL (R24), ID (R22), PARAM (R23), the SEL view (R36), and the interrupt
output (60_exceptions.md R227). -/

namespace Sys2Proof.Machine

/-- The code of an error (R221). -/
def CmdError.code : CmdError → BitVec 4
  | .invalidKeyLength  => 1
  | .inputTooLong      => 2
  | .malformedEncoding => 3
  | .doubleRelease     => 4
  | .useAfterRelease   => 5
  | .illegalCommand    => 6
  | .noFreeHandle      => 7

/-- ERRCODE: 0 for success, else the error's code (R221, R226). -/
def errCode : Option CmdError → BitVec 4
  | none => 0
  | some e => e.code

/-- The ID constant (R22). -/
def idWord : Word := 0x44455331

/-- PARAM: MAX_BLOCKS in bits 7:0, NUM_SLOTS in bits 11:8 (R23). -/
def paramWord (c : Config) : Word := (0 : BitVec 20) ++ BitVec.ofNat 4 c.numSlots ++ BitVec.ofNat 8 c.maxBlocks

/-- CTRL: IRQ_EN in bit 0, the rest reads 0 (R24). -/
def ctrlWord (s : State) : Word := (0 : BitVec 31) ++ BitVec.ofBool s.irqEn

/-- STATUS: ERRCODE in bits 7:4, bit 3 zero, WERR, DONE, BUSY in bits 2, 1, 0 (R25). -/
def statusWord (s : State) : Word :=
  (0 : BitVec 24) ++ errCode s.errcode ++ (0 : BitVec 1) ++ BitVec.ofBool s.werr ++ BitVec.ofBool s.done
    ++ BitVec.ofBool s.busy

/-- The SEL view: SLEN in bits 31:16, SVALID in bit 0, and 0 while busy or with nothing selected (R36). -/
def selView (s : State) : Word :=
  if !s.busy && s.selv then (selectedSlot s).len ++ (1 : BitVec 16) else 0

/-- A host write of CTRL: only IRQ_EN is implemented (R24, R77). -/
def writeCtrl (w : Word) (s : State) : State := { s with irqEn := w.getLsbD 0 }

/-- A host write of STATUS: bit 1 clears DONE, bit 2 clears WERR, nothing else (R25, R77). -/
def writeStatus (w : Word) (s : State) : State :=
  { s with done := s.done && !w.getLsbD 1, werr := s.werr && !w.getLsbD 2 }

/-- A write dropped because the block is busy sets WERR (R28, R78). -/
def dropWrite (s : State) : State := { s with werr := true }

/-- The interrupt output `irq = CTRL.IRQ_EN and STATUS.DONE` (R227). -/
def irq (s : State) : Bool := s.irqEn && s.done

end Sys2Proof.Machine
end

