-- ==== Sys2Proof/Machine/Bus.lean ====
section
/-! DEFINITION. Host transactions (20_memory.md): legality (R72), lanes (R73), byte reads and writes (R74, R75),
control register reads and writes (R76, R77), writes and reads while busy (R78, R79). -/

namespace Sys2Proof.Machine

/-- `legal(offset, size)` (R72). -/
def legalAccess (o : Offset) : Size → Bool
  | .four => decide (o.toNat % 4 = 0)
  | .one => decide (0x030 ≤ o.toNat)
  | .two => false

/-- `rbyte(o)` for `o >= 0x030` (R74). -/
def rbyte (s : State) (o : Nat) : Byte :=
  if o ≤ 0x037 then 0x00
  else if o ≤ 0x03F then byteAt s .din (o - 0x038)
  else if o ≤ 0x047 then (if s.busy then 0x00 else byteAt s .dout (o - 0x040))
  else if o ≤ 0x3FF then 0x00
  else if o ≤ 0x7FF then (if o - 0x400 < s.cfg.ibufBytes then byteAt s .ibuf (o - 0x400) else 0x00)
  else if !s.busy && s.selv && live s s.selh && decide (o - 0x800 < s.cfg.slotBytes) then
    byteAt s (.slot (handleSlot s.selh)) (o - 0x800)
  else 0x00

/-- `wbyte(o, b)` for `o >= 0x030` (R75). -/
def wbyte (o : Nat) (b : Byte) (s : State) : State :=
  if (0x030 ≤ o ∧ o ≤ 0x03F) ∨ (0x400 ≤ o ∧ o < 0x400 + s.cfg.ibufBytes) then
    if s.busy then dropWrite s
    else if o ≤ 0x037 then memWrite .keyb (o - 0x030) [b] s
    else if o ≤ 0x03F then memWrite .din (o - 0x038) [b] s
    else memWrite .ibuf (o - 0x400) [b] s
  else s

/-- The control register at an offset below 0x030 (R76). DEDUCED (notes/assumptions/19.md): KEYLEN is read back, as R31
and R76 say, where 92_eei_decisions.md D19 calls it write-only; unsafe. -/
def ctrlRead (s : State) (o : Nat) : Word :=
  if o = 0x000 then idWord
  else if o = 0x004 then paramWord s.cfg
  else if o = 0x008 then ctrlWord s
  else if o = 0x00C then statusWord s
  else if o = 0x010 then 0
  else if o = 0x014 then s.keylen
  else if o = 0x018 then s.mlen
  else if o = 0x01C then s.harg
  else if o = 0x020 then (if s.busy then 0 else s.rhandle)
  else if o = 0x024 then (if s.busy then 0 else s.rlen.setWidth 32)
  else if o = 0x028 then selView s
  else 0

/-- A write of the control register at an offset below 0x030 (R77). -/
def ctrlWrite (o : Nat) (w : Word) (s : State) : State :=
  if o = 0x008 then writeCtrl w s
  else if o = 0x00C then writeStatus w s
  else if o = 0x010 ∨ o = 0x014 ∨ o = 0x018 ∨ o = 0x01C then
    if s.busy then dropWrite s
    else if o = 0x010 then accept w s
    else if o = 0x014 then { s with keylen := w }
    else if o = 0x018 then { s with mlen := w }
    else { s with harg := w }
  else s

/-- The four bytes from offset `a` as one word, little-endian lanes (R73). -/
def rword (s : State) (a : Nat) : Word := rbyte s (a + 3) ++ rbyte s (a + 2) ++ rbyte s (a + 1) ++ rbyte s a

/-- The four byte writes of a 32-bit write, `i = 0..3`, in one step (R73). -/
def wword (a : Nat) (w : Word) (s : State) : State :=
  wbyte (a + 3) (w.extractLsb' 24 8) (wbyte (a + 2) (w.extractLsb' 16 8)
    (wbyte (a + 1) (w.extractLsb' 8 8) (wbyte a (w.extractLsb' 0 8) s)))

/-- The data of a legal read (R71, R73). -/
def readData (s : State) (o : Offset) : Size → Word
  | .one => (rbyte s o.toNat).setWidth 32
  | .two | .four => if o.toNat < 0x030 then ctrlRead s o.toNat else rword s o.toNat

/-- The state after a legal write (R71, R73). -/
def writeData (o : Offset) (w : Word) (s : State) : Size → State
  | .one => wbyte o.toNat (w.extractLsb' 0 8) s
  | .two | .four => if o.toNat < 0x030 then ctrlWrite o.toNat w s else wword o.toNat w s

/-- What a transaction is answered with (R71, R72). -/
def replyOf (s : State) : Xact → Reply
  | .read o sz => if legalAccess o sz then .read (readData s o sz) .okay else .read 0 .error
  | .write o sz _ => if legalAccess o sz then .write .okay else .write .error

/-- What a transaction does to the block: a read nothing (R79), an illegal transaction nothing (R72). -/
def applyXact (x : Xact) (s : State) : State :=
  match x with
  | .read _ _ => s
  | .write o sz w => if legalAccess o sz then writeData o w s sz else s

/-- One host transaction, one indivisible step of the host (R71). -/
def hostStep (x : Xact) (s : State) : State :=
  { applyXact x s with replies := replyOf s x :: s.replies }

end Sys2Proof.Machine
end

