-- ==== Sys2Proof/Machine/Des.lean ====
section
/-! DEFINITION. The key schedule generator (40_key_schedule.md) and the Feistel round engine (41_feistel.md) as
functions of their inputs. The tables are the spec's, letter for letter; the spec marks them as general knowledge
(93_implementation_defined.md G1 to G3). -/

namespace Sys2Proof.Machine

/-- Direction of a transform (41_feistel.md R154). -/
inductive Dir where
  | encrypt
  | decrypt
  deriving DecidableEq, Repr

/-- `Permute(v, n, T)` with an `m`-bit result, `m` the number of entries of `T` (00_scope.md R7): output position `j`
takes input position `T[j]`, position 1 being the most significant bit. -/
def permute (m : Nat) (T : List Nat) {n : Nat} (v : BitVec n) : BitVec m :=
  BitVec.ofNat m (T.foldl (fun acc p => 2 * acc + (v.getMsbD (p - 1)).toNat) 0)

/-- PC-1 (R121). -/
def pc1 : List Nat :=
  [57, 49, 41, 33, 25, 17, 9, 1, 58, 50, 42, 34, 26, 18] ++
  [10, 2, 59, 51, 43, 35, 27, 19, 11, 3, 60, 52, 44, 36] ++
  [63, 55, 47, 39, 31, 23, 15, 7, 62, 54, 46, 38, 30, 22] ++
  [14, 6, 61, 53, 45, 37, 29, 21, 13, 5, 28, 20, 12, 4]

/-- PC-2 (R125). -/
def pc2 : List Nat :=
  [14, 17, 11, 24, 1, 5, 3, 28, 15, 6, 21, 10] ++
  [23, 19, 12, 4, 26, 8, 16, 7, 27, 20, 13, 2] ++
  [41, 52, 31, 37, 47, 55, 30, 40, 51, 45, 33, 48] ++
  [44, 49, 39, 56, 34, 53, 46, 42, 50, 36, 29, 32]

/-- SHIFTS[1..16] (R123). -/
def shifts : List Nat := [1, 1, 2, 2, 2, 2, 2, 2, 1, 2, 2, 2, 2, 2, 2, 1]

/-- IP (R140). -/
def ip : List Nat :=
  [58, 50, 42, 34, 26, 18, 10, 2, 60, 52, 44, 36, 28, 20, 12, 4] ++
  [62, 54, 46, 38, 30, 22, 14, 6, 64, 56, 48, 40, 32, 24, 16, 8] ++
  [57, 49, 41, 33, 25, 17, 9, 1, 59, 51, 43, 35, 27, 19, 11, 3] ++
  [61, 53, 45, 37, 29, 21, 13, 5, 63, 55, 47, 39, 31, 23, 15, 7]

/-- FP (R141). -/
def fp : List Nat :=
  [40, 8, 48, 16, 56, 24, 64, 32, 39, 7, 47, 15, 55, 23, 63, 31] ++
  [38, 6, 46, 14, 54, 22, 62, 30, 37, 5, 45, 13, 53, 21, 61, 29] ++
  [36, 4, 44, 12, 52, 20, 60, 28, 35, 3, 43, 11, 51, 19, 59, 27] ++
  [34, 2, 42, 10, 50, 18, 58, 26, 33, 1, 41, 9, 49, 17, 57, 25]

/-- E (R142). -/
def expansion : List Nat :=
  [32, 1, 2, 3, 4, 5, 4, 5, 6, 7, 8, 9, 8, 9, 10, 11, 12, 13, 12, 13, 14, 15, 16, 17] ++
  [16, 17, 18, 19, 20, 21, 20, 21, 22, 23, 24, 25, 24, 25, 26, 27, 28, 29, 28, 29, 30, 31, 32, 1]

/-- P (R143). -/
def roundPerm : List Nat :=
  [16, 7, 20, 21, 29, 12, 28, 17, 1, 15, 23, 26, 5, 18, 31, 10] ++
  [2, 8, 24, 14, 32, 27, 3, 9, 19, 13, 30, 6, 22, 11, 4, 25]

/-- S1 (R145). -/
def s1 : List (List Nat) :=
  [[14, 4, 13, 1, 2, 15, 11, 8, 3, 10, 6, 12, 5, 9, 0, 7],
   [0, 15, 7, 4, 14, 2, 13, 1, 10, 6, 12, 11, 9, 5, 3, 8],
   [4, 1, 14, 8, 13, 6, 2, 11, 15, 12, 9, 7, 3, 10, 5, 0],
   [15, 12, 8, 2, 4, 9, 1, 7, 5, 11, 3, 14, 10, 0, 6, 13]]

/-- S2 (R146). -/
def s2 : List (List Nat) :=
  [[15, 1, 8, 14, 6, 11, 3, 4, 9, 7, 2, 13, 12, 0, 5, 10],
   [3, 13, 4, 7, 15, 2, 8, 14, 12, 0, 1, 10, 6, 9, 11, 5],
   [0, 14, 7, 11, 10, 4, 13, 1, 5, 8, 12, 6, 9, 3, 2, 15],
   [13, 8, 10, 1, 3, 15, 4, 2, 11, 6, 7, 12, 0, 5, 14, 9]]

/-- S3 (R147). -/
def s3 : List (List Nat) :=
  [[10, 0, 9, 14, 6, 3, 15, 5, 1, 13, 12, 7, 11, 4, 2, 8],
   [13, 7, 0, 9, 3, 4, 6, 10, 2, 8, 5, 14, 12, 11, 15, 1],
   [13, 6, 4, 9, 8, 15, 3, 0, 11, 1, 2, 12, 5, 10, 14, 7],
   [1, 10, 13, 0, 6, 9, 8, 7, 4, 15, 14, 3, 11, 5, 2, 12]]

/-- S4 (R148). -/
def s4 : List (List Nat) :=
  [[7, 13, 14, 3, 0, 6, 9, 10, 1, 2, 8, 5, 11, 12, 4, 15],
   [13, 8, 11, 5, 6, 15, 0, 3, 4, 7, 2, 12, 1, 10, 14, 9],
   [10, 6, 9, 0, 12, 11, 7, 13, 15, 1, 3, 14, 5, 2, 8, 4],
   [3, 15, 0, 6, 10, 1, 13, 8, 9, 4, 5, 11, 12, 7, 2, 14]]

/-- S5 (R149). -/
def s5 : List (List Nat) :=
  [[2, 12, 4, 1, 7, 10, 11, 6, 8, 5, 3, 15, 13, 0, 14, 9],
   [14, 11, 2, 12, 4, 7, 13, 1, 5, 0, 15, 10, 3, 9, 8, 6],
   [4, 2, 1, 11, 10, 13, 7, 8, 15, 9, 12, 5, 6, 3, 0, 14],
   [11, 8, 12, 7, 1, 14, 2, 13, 6, 15, 0, 9, 10, 4, 5, 3]]

/-- S6 (R150). -/
def s6 : List (List Nat) :=
  [[12, 1, 10, 15, 9, 2, 6, 8, 0, 13, 3, 4, 14, 7, 5, 11],
   [10, 15, 4, 2, 7, 12, 9, 5, 6, 1, 13, 14, 0, 11, 3, 8],
   [9, 14, 15, 5, 2, 8, 12, 3, 7, 0, 4, 10, 1, 13, 11, 6],
   [4, 3, 2, 12, 9, 5, 15, 10, 11, 14, 1, 7, 6, 0, 8, 13]]

/-- S7 (R151). -/
def s7 : List (List Nat) :=
  [[4, 11, 2, 14, 15, 0, 8, 13, 3, 12, 9, 7, 5, 10, 6, 1],
   [13, 0, 11, 7, 4, 9, 1, 10, 14, 3, 5, 12, 2, 15, 8, 6],
   [1, 4, 11, 13, 12, 3, 7, 14, 10, 15, 6, 8, 0, 5, 9, 2],
   [6, 11, 13, 8, 1, 4, 10, 7, 9, 5, 0, 15, 14, 2, 3, 12]]

/-- S8 (R152). -/
def s8 : List (List Nat) :=
  [[13, 2, 8, 4, 6, 15, 11, 1, 10, 9, 3, 14, 5, 0, 12, 7],
   [1, 15, 13, 8, 10, 3, 7, 4, 12, 5, 6, 11, 0, 14, 9, 2],
   [7, 11, 4, 1, 9, 12, 14, 2, 0, 6, 10, 13, 15, 3, 5, 8],
   [2, 1, 14, 7, 4, 10, 8, 13, 15, 12, 9, 0, 3, 5, 6, 11]]

/-- S1 to S8 in lane order (R144). -/
def sboxes : List (List (List Nat)) := [s1, s2, s3, s4, s5, s6, s7, s8]

/-! ### Key schedule -/

/-- `rol_28` (R6, R124). -/
def rol28 (v : KeyHalf) (k : Nat) : KeyHalf := v.rotateLeft k

/-- One round's C and D from the previous round's (R124). -/
def rotateHalves (cd : KeyHalf × KeyHalf) (k : Nat) : KeyHalf × KeyHalf := (rol28 cd.1 k, rol28 cd.2 k)

/-- C0 and D0 of a key: PC-1, then the split (R121, R122). -/
def keyHalves (k : Key) : KeyHalf × KeyHalf :=
  ((permute 56 pc1 k).extractLsb' 28 28, (permute 56 pc1 k).extractLsb' 0 28)

/-- The subkey of a round from its C and D: PC-2 of `C ‖ D` (R125). -/
def subkeyOf (cd : KeyHalf × KeyHalf) : Subkey := permute 48 pc2 (cd.1 ++ cd.2)

/-- The subkeys of the rounds whose rotation amounts are listed, from the halves before them (R126). -/
def keyRounds : List Nat → KeyHalf × KeyHalf → List Subkey
  | [], _ => []
  | k :: ks, cd => subkeyOf (rotateHalves cd k) :: keyRounds ks (rotateHalves cd k)

theorem keyRounds_length (ks : List Nat) (cd : KeyHalf × KeyHalf) : (keyRounds ks cd).length = ks.length := by
  induction ks generalizing cd with
  | nil => rfl
  | cons k ks ih => simp [keyRounds, ih]

/-- `DeriveSchedule(K)` (R126). -/
def deriveSchedule (k : Key) : Schedule :=
  ⟨(keyRounds shifts (keyHalves k)).toArray, by simp [keyRounds_length, shifts]⟩

/-! ### Round engine -/

/-- Lane `i` of the S-box input, `B_i = X[53-6i : 48-6i]` (R144). -/
def lane (x : BitVec 48) (i : Nat) : BitVec 6 := x.extractLsb' (48 - 6 * i) 6

/-- `row = b5 ‖ b0` (R144). -/
def laneRow (b : BitVec 6) : Nat := 2 * (b.getLsbD 5).toNat + (b.getLsbD 0).toNat

/-- `col = b[4:1]` (R144). -/
def laneCol (b : BitVec 6) : Nat := (b.extractLsb' 1 4).toNat

/-- `S_i[row][col]` for lane value `b` (R144 to R152). -/
def sboxEntry (i : Nat) (b : BitVec 6) : Nat :=
  (((sboxes.getD (i - 1) []).getD (laneRow b) []).getD (laneCol b) 0)

/-- `SBOX(X)`: the eight lane outputs, lane 1 most significant (R144). -/
def sbox (x : BitVec 48) : BitVec 32 :=
  BitVec.ofNat 32 ([1, 2, 3, 4, 5, 6, 7, 8].foldl (fun acc i => 16 * acc + sboxEntry i (lane x i)) 0)

/-- The round function `f(R, k)` (R153). -/
def roundFn (r : Half) (k : Subkey) : Half := permute 32 roundPerm (sbox (permute 48 expansion r ^^^ k))

/-- One round: `(L, R) <- (R, L ⊕ f(R, k))` (R154). -/
def feistelRound (h : Half × Half) (k : Subkey) : Half × Half := (h.2, h.1 ^^^ roundFn h.2 k)

/-- The subkeys in the order a direction uses them (R155). -/
def subkeyOrder (sk : Schedule) : Dir → List Subkey
  | .encrypt => sk.toList
  | .decrypt => sk.toList.reverse

/-- L_0 and R_0 of a block: IP, then the split (R140, R154). -/
def blockHalves (x : Block) : Half × Half :=
  ((permute 64 ip x).extractLsb' 32 32, (permute 64 ip x).extractLsb' 0 32)

/-- L_16 and R_16 of a block (R154). -/
def finalHalves (x : Block) (sk : Schedule) (dir : Dir) : Half × Half :=
  (subkeyOrder sk dir).foldl feistelRound (blockHalves x)

/-- FP of `R_16 ‖ L_16` (R141, R154). -/
def recombine (h : Half × Half) : Block := permute 64 fp (h.2 ++ h.1)

/-- `Transform(x, SK, dir)` (R154). -/
def transform (x : Block) (sk : Schedule) (dir : Dir) : Block := recombine (finalHalves x sk dir)

end Sys2Proof.Machine
end

