-- ==== Sys2Proof/Machine/Formatter.lean ====
section
/-! DEFINITION. The block formatter (42_formatter.md) as functions on byte sequences. -/

namespace Sys2Proof.Machine

/-- The pad length of an `n`-byte message, `p = 8 - (n mod 8)` (R170). -/
def padLen (n : Nat) : Nat := 8 - n % 8

/-- `Pad(m)`: `p` bytes of value `p` after the message (R170). -/
def pad (m : List Byte) : List Byte := m ++ List.replicate (padLen m.length) (BitVec.ofNat 8 (padLen m.length))

/-- The first `nb` blocks of a byte sequence (R171). -/
def blocksOf : Nat → List Byte → List Block
  | 0, _ => []
  | nb + 1, t => be64 (t.take 8) :: blocksOf nb (t.drop 8)

/-- `B_0, ..., B_{nb-1}` with `nb = len(t) / 8` (R171). -/
def blocks (t : List Byte) : List Block := blocksOf (t.length / 8) t

/-- `Join` (R171). -/
def join (ys : List Block) : List Byte := ys.flatMap bytes8

/-- `DIGIT(d)`: ASCII '0'..'9' then 'A'..'F' (R172, 30_encoding.md R105). -/
def hexDigit (d : BitVec 4) : Byte :=
  if d.toNat < 10 then BitVec.ofNat 8 (0x30 + d.toNat) else BitVec.ofNat 8 (0x41 + (d.toNat - 10))

/-- `HexEncode(c)`: high nibble first (R172). -/
def hexEncode (c : List Byte) : List Byte :=
  c.flatMap fun b => [hexDigit (b.extractLsb' 4 4), hexDigit (b.extractLsb' 0 4)]

/-- `VAL(ch)`; `none` is *invalid* (R173). -/
def hexVal (ch : Byte) : Option Nat :=
  if 0x30 ≤ ch.toNat ∧ ch.toNat ≤ 0x39 then some (ch.toNat - 0x30)
  else if 0x41 ≤ ch.toNat ∧ ch.toNat ≤ 0x46 then some (ch.toNat - 0x41 + 10)
  else if 0x61 ≤ ch.toNat ∧ ch.toNat ≤ 0x66 then some (ch.toNat - 0x61 + 10)
  else none

/-- `HexDecode(h)` for a text of even length; `none` is *malformed* (R173). An odd text is outside R173's precondition
and no command decodes one (notes/assumptions/11.md). -/
def hexDecode : List Byte → Option (List Byte)
  | [] => some []
  | [_] => none
  | a :: b :: rest =>
    match hexVal a, hexVal b, hexDecode rest with
    | some x, some y, some out => some (BitVec.ofNat 8 (x * 16 + y) :: out)
    | _, _, _ => none

/-- `Unpad(t)`; `none` is *badpad* (R174). No command unpads an empty sequence (notes/assumptions/11.md). -/
def unpad (t : List Byte) : Option (List Byte) :=
  match t.getLast? with
  | none => none
  | some last =>
    if 1 ≤ last.toNat ∧ last.toNat ≤ 8 ∧ ∀ b ∈ t.drop (t.length - last.toNat), b = last then
      some (t.take (t.length - last.toNat))
    else none

/-- `EncryptText(m, SK)` (R175). -/
def encryptText (m : List Byte) (sk : Schedule) : List Byte :=
  hexEncode (join ((blocks (pad m)).map fun x => transform x sk .encrypt))

/-- The structural checks and the hex decoding of DecryptText; `none` is MalformedEncoding (R176). -/
def decodeText (h : List Byte) : Option (List Byte) :=
  if h.length = 0 ∨ h.length % 16 ≠ 0 then none else hexDecode h

/-- `DecryptText(h, SK)`; `none` is MalformedEncoding (R176). -/
def decryptText (h : List Byte) (sk : Schedule) : Option (List Byte) :=
  match decodeText h with
  | none => none
  | some c => unpad (join ((blocks c).map fun x => transform x sk .decrypt))

end Sys2Proof.Machine
end

