-- ==== Sys2Proof/Machine/Engine.lean ====
section
/-! DEFINITION. What the key schedule generator and the round engine do to the hidden registers inside a command
(10_state.md R50, R51; 40_key_schedule.md R126, R128; 41_feistel.md R158). A completion is one step, so each operation
leaves the registers as they stand at its end (notes/assumptions/7.md). -/

namespace Sys2Proof.Machine

/-- DeriveSchedule into the registers: SK, and C and D after round 16 (R126). -/
def Engine.loadSchedule (k : Key) (e : Engine) : Engine :=
  let cd := shifts.foldl rotateHalves (keyHalves k)
  { e with sk := deriveSchedule k, c := cd.1, d := cd.2, round := 16 }

/-- One block through the 16 rounds with the subkeys in SK; its result is appended to the scratch store (R154, R158). -/
def Engine.runBlock (dir : Dir) (e : Engine) (x : Block) : Engine :=
  let h := finalHalves x e.sk dir
  { e with l := h.1, r := h.2, round := 16, block := e.block + 1, scratch := e.scratch ++ bytes8 (recombine h) }

/-- Blocks in ascending order, each independently with the one schedule (R158, ECB). -/
def Engine.runBlocks (dir : Dir) (xs : List Block) (e : Engine) : Engine :=
  xs.foldl (Engine.runBlock dir) { e with block := 0, scratch := [] }

end Sys2Proof.Machine
end

