-- ==== Sys2Proof/Machine/Keyed.lean ====
section
/-! DEFINITION. The frame every keyed command runs inside (43_commands.md R191). -/

namespace Sys2Proof.Machine

/-- `Keyed(body)` (R191): the key length is the first check (40_key_schedule.md R120); the body makes its own checks
and, where they pass, derives the schedule and writes the results; `onRaise` is what the command's rule writes on an
error; and in every outcome the key, its length, SK and the working registers are cleared. -/
def keyed (onRaise : State → State) (body : Key → State → Except CmdError State) (s : State) :
    Host.Outcome State Fault Refusal :=
  if s.keylen = 8 then
    match body (keyOperand s) s with
    | .ok t => complete (consumeKey t)
    | .error e => raiseError e (consumeKey (onRaise s))
  else raiseError .invalidKeyLength (consumeKey (onRaise s))

/-- The schedule derivation and block transforms of a keyed command, on the hidden registers. -/
def runEngine (k : Key) (dir : Dir) (xs : List Block) (s : State) : State :=
  { s with eng := (s.eng.loadSchedule k).runBlocks dir xs }

end Sys2Proof.Machine
end

