-- ==== Sys2Proof/Machine/Boundary.lean ====
section
/-! DEFINITION. The boundary commands ENC and DEC (43_commands.md R192, R193). -/

namespace Sys2Proof.Machine

/-- The body of ENC (R192): length check, free-slot check, then the schedule, EncryptText (42_formatter.md R175) and
Alloc. -/
def encBody (k : Key) (s : State) : Except CmdError State :=
  if s.mlen.toNat > s.cfg.maxMsg then .error .inputTooLong
  else
    match freeSlot s with
    | none => .error .noFreeHandle
    | some i =>
      let t := runEngine k .encrypt (blocks (pad (textOperand s))) s
      .ok (storeResult i (hexEncode t.eng.scratch) t)

/-- ENC (R192). -/
def execEnc (s : State) : Host.Outcome State Fault Refusal := keyed clearResult encBody s

/-- The body of DEC (R193): length, structure and characters, free slot, then the schedule, the blocks, the padding
check (42_formatter.md R176) and Alloc. -/
def decBody (k : Key) (s : State) : Except CmdError State :=
  if s.mlen.toNat > s.cfg.maxHex then .error .inputTooLong
  else
    match decodeText (textOperand s) with
    | none => .error .malformedEncoding
    | some c =>
      match freeSlot s with
      | none => .error .noFreeHandle
      | some i =>
        let t := runEngine k .decrypt (blocks c) s
        match unpad t.eng.scratch with
        | none => .error .malformedEncoding
        | some m => .ok (storeResult i m t)

/-- DEC (R193). -/
def execDec (s : State) : Host.Outcome State Fault Refusal := keyed clearResult decBody s

end Sys2Proof.Machine
end

