-- ==== Sys2Proof/Machine/HandleCommands.lean ====
section
/-! DEFINITION. The handle commands SEL and REL (43_commands.md R196, R197). -/

namespace Sys2Proof.Machine

/-- SEL (R196). A failed SEL deselects; SELH keeps its value then. -/
def execSel (s : State) : Host.Outcome State Fault Refusal :=
  if live s s.harg then complete { s with selv := true, selh := s.harg }
  else raiseError .useAfterRelease { s with selv := false }

/-- Deselection by the release of handle `h` (R197: `if SELV = 1 and SELH = h: SELV <- 0`). -/
def deselect (h : Word) (s : State) : State := { s with selv := s.selv && decide (s.selh ≠ h) }

/-- REL (R197). -/
def execRel (s : State) : Host.Outcome State Fault Refusal :=
  if live s s.harg then complete (deselect s.harg (releaseSlot (handleSlot s.harg) s))
  else raiseError .doubleRelease s

end Sys2Proof.Machine
end

