-- ==== Sys2Proof/Machine/RawTransform.lean ====
section
/-! DEFINITION. The raw transform commands ENCB and DECB (43_commands.md R194, R195). -/

namespace Sys2Proof.Machine

/-- The body of ENCB and DECB: one block, DIN to DOUT (R194, R195). No check of their own. -/
def rawBody (dir : Dir) (k : Key) (s : State) : Except CmdError State :=
  let t := runEngine k dir [blockOperand s] s
  .ok (memWrite .dout 0 t.eng.scratch t)

/-- ENCB (R194). -/
def execEncb (s : State) : Host.Outcome State Fault Refusal := keyed clearDout (rawBody .encrypt) s

/-- DECB (R195). -/
def execDecb (s : State) : Host.Outcome State Fault Refusal := keyed clearDout (rawBody .decrypt) s

end Sys2Proof.Machine
end

