-- ==== Sys2Proof/Machine/SystemCommand.lean ====
section
/-! DEFINITION. The system command CLR (43_commands.md R198; 70_reset_and_hazards.md R252) and what an illegal word
does (43_commands.md R199). -/

namespace Sys2Proof.Machine

/-- Every element of 10_state.md R65 at its reset value except CTRL and GEN of every slot; the model's own fields
are not the block's and stay (R198). -/
def clearBlock (s : State) : State :=
  { State.resetOf s.cfg with
    irqEn := s.irqEn
    slots := s.slots.map fun sl => { Slot.initial with gen := sl.gen }
    inReset := s.inReset, turns := s.turns, replies := s.replies }

/-- CLR (R198): WERR is cleared with the rest, and the command completes. -/
def execClr (s : State) : Host.Outcome State Fault Refusal := complete (clearBlock s)

/-- The completion of an illegal word (R199): IllegalCommand and no other effect; the key is not consumed. -/
def execIllegal (s : State) : Host.Outcome State Fault Refusal := raiseError .illegalCommand s

end Sys2Proof.Machine
end

