-- ==== Sys2Proof/Machine/Dispatch.lean ====
section
/-! DEFINITION. The meaning of each command: what the completion step does for it (60_exceptions.md R226). -/

namespace Sys2Proof.Machine

def exec (i : Instr) (s : State) : Host.Outcome State Fault Refusal :=
  match i with
  | .enc => Sys2Proof.Machine.execEnc s
  | .dec => Sys2Proof.Machine.execDec s
  | .encb => Sys2Proof.Machine.execEncb s
  | .decb => Sys2Proof.Machine.execDecb s
  | .sel => Sys2Proof.Machine.execSel s
  | .rel => Sys2Proof.Machine.execRel s
  | .clr => Sys2Proof.Machine.execClr s

end Sys2Proof.Machine
end

