-- ==== Sys2Proof/Machine/Sequencer.lean ====
section
/-! DEFINITION. The agents' moves: the completion step (60_exceptions.md R226), the sequencer's turn (00_scope.md R10),
the reset input (70_reset_and_hazards.md R250), and which of them a turn is. -/

namespace Sys2Proof.Machine

/-- The completion step: the word in PCMD is executed by its rule (R226); a word that is no command completes with
IllegalCommand (R199, R102). -/
def completion (s : State) : Host.Outcome State Fault Refusal :=
  match decode s.pcmd with
  | .ok i => exec i s
  | .error _ => execIllegal s

/-- The sequencer's turn: it has a step only while BUSY = 1 (R10, R26) and the block is not held in reset. -/
def coreTurn (s : State) : Host.Outcome State Fault Refusal :=
  if s.busy && !s.inReset then completion s else .next s

/-- Hardware reset: every element of R20 at its value of R65; a command in flight is dropped without its completion
(R250). The model's own fields are not the block's and stay. -/
def resetBlock (s : State) : State :=
  { State.resetOf s.cfg with inReset := s.inReset, turns := s.turns, replies := s.replies }

/-- One move, with the turns after it already in `s` (R85). -/
def takeTurn (t : Turn) (s : State) : Host.Outcome State Fault Refusal :=
  match t with
  | .host x => if s.inReset then .fault .hostDuringReset else .next (hostStep x s)
  | .core => coreTurn s
  | .assertReset => .next { resetBlock s with inReset := true }
  | .deassertReset => .next { s with inReset := false }
  | .freeElsewhere _ => .refused .crossAllocatorRelease

/-- The step when no move is listed: a busy block completes, which is the weak fairness of R262; an idle one changes
nothing on its own (R235). -/
def restTurn (s : State) : Host.Outcome State Fault Refusal := coreTurn s

/-- The state in which the sequencer executes `w` next: `w` accepted (R190), the reset input released, and the
sequencer's turn in front of the other turns. -/
def loadCommand (w : Word) (s : State) : State :=
  { accept w s with inReset := false, turns := .core :: s.turns }

end Sys2Proof.Machine
end

