-- ==== Sys2Proof/Machine/Step.lean ====
section
/-! DEFINITION. One step of the machine: the next move of the interleaving (20_memory.md R85). -/

namespace Sys2Proof.Machine

/-- The next move: the first turn listed, or, when none is, the sequencer's (R85, R262). -/
def step (s : State) : Host.Outcome State Fault Refusal :=
  match s.turns with
  | [] => restTurn s
  | t :: rest => takeTurn t { s with turns := rest }

/-- `s` with the command word whose low `nbits` bits are those of `w`, the rest 0, where the next step takes its
command from: accepted, and the sequencer's turn next. -/
def State.withFetchWord (s : State) (nbits w : Nat) : State :=
  loadCommand (BitVec.ofNat 32 (w % 2 ^ nbits)) s

end Sys2Proof.Machine
end

