-- ==== Sys2Proof/Safety.lean ====
section
/-! DEFINITION. The terms claims are stated in: who moves next, which commands are keyed, and the invariant that every
step keeps. A safe run is one whose states all meet the invariant; it stops only where the outside world breaks a duty
of its own (`Fault.hostDuringReset`, `Refusal.crossAllocatorRelease`). -/

namespace Sys2Proof

/-- The keyed commands (00_scope.md glossary; 43_commands.md R191). -/
def Instr.keyed : Instr → Bool
  | .enc | .dec | .encb | .decb => true
  | .sel | .rel | .clr => false

end Sys2Proof

namespace Sys2Proof.Machine

/-- The state with the turn that is being taken removed. -/
def State.pop (s : State) : State := { s with turns := s.turns.tail }

/-- The next step is the sequencer's completion step (00_scope.md R10, 20_memory.md R85). -/
abbrev sequencerMoves (s : State) : Prop :=
  s.busy = true ∧ s.inReset = false ∧ (s.turns = [] ∨ s.turns.head? = some .core)

/-- The next step is the host's transaction `x` (20_memory.md R71). -/
abbrev hostMoves (x : Xact) (s : State) : Prop := s.inReset = false ∧ s.turns.head? = some (.host x)

/-- The next step is the completion of command `i`. -/
abbrev completes (i : Instr) (s : State) : Prop := sequencerMoves s ∧ decode s.pcmd = .ok i

/-- A write at this offset is an input of a command, and so is dropped while busy: CMD, KEYLEN, MLEN, HARG, KEYB, DIN
or IBUF (20_memory.md R78). -/
abbrev commandInput (c : Config) (o : Nat) : Prop :=
  o = 0x010 ∨ o = 0x014 ∨ o = 0x018 ∨ o = 0x01C ∨ (0x030 ≤ o ∧ o ≤ 0x03F) ∨ (0x400 ≤ o ∧ o < 0x400 + c.ibufBytes)

/-- The command ends by a completion with this ERRCODE (60_exceptions.md R226). -/
def EndsWith (o : Host.Outcome State Fault Refusal) (e : Option CmdError) : Prop :=
  ∃ t, o = .next t ∧ t.busy = false ∧ t.done = true ∧ t.errcode = e

/-- Slot `i` is the least FREE one (43_commands.md R200). -/
abbrev LeastFree (s : State) (i : Nat) (sl : Slot) : Prop :=
  s.slots[i]? = some sl ∧ sl.state = .free ∧ ∀ sl' ∈ s.slots.take i, sl'.state = .live

/-- No slot is FREE (43_commands.md R192). -/
abbrev NoneFree (s : State) : Prop := ∀ sl ∈ s.slots, sl.state = .live

/-- The bytes that are hexadecimal digits: '0' to '9', 'A' to 'F', 'a' to 'f' (42_formatter.md R173). -/
abbrev HexDigit (ch : Byte) : Prop :=
  (0x30 ≤ ch.toNat ∧ ch.toNat ≤ 0x39) ∨ (0x41 ≤ ch.toNat ∧ ch.toNat ≤ 0x46) ∨ (0x61 ≤ ch.toNat ∧ ch.toNat ≤ 0x66)

/-- The error a command ends with: the first of its line in 60_exceptions.md R223 whose cause (R221) holds, `none` for
success. -/
def firstError (i : Instr) (s : State) : Option CmdError :=
  match i with
  | .enc =>
    if s.keylen ≠ 8 then some .invalidKeyLength
    else if s.mlen.toNat > s.cfg.maxMsg then some .inputTooLong
    else if NoneFree s then some .noFreeHandle
    else none
  | .dec =>
    if s.keylen ≠ 8 then some .invalidKeyLength
    else if s.mlen.toNat > s.cfg.maxHex then some .inputTooLong
    else if s.mlen = 0 ∨ s.mlen.toNat % 16 ≠ 0 ∨ ∃ ch ∈ memRead .ibuf 0 s.mlen.toNat s, ¬HexDigit ch then
      some .malformedEncoding
    else if NoneFree s then some .noFreeHandle
    else if decryptText (memRead .ibuf 0 s.mlen.toNat s) (deriveSchedule (be64 (memRead .keyb 0 8 s))) = none then
      some .malformedEncoding
    else none
  | .encb => if s.keylen ≠ 8 then some .invalidKeyLength else none
  | .decb => if s.keylen ≠ 8 then some .invalidKeyLength else none
  | .sel => if live s s.harg = true then none else some .useAfterRelease
  | .rel => if live s s.harg = true then none else some .doubleRelease
  | .clr => none

/-- What a keyed command leaves of the key, of the hidden registers and of STATUS when it ends with `e`
(43_commands.md R191, 60_exceptions.md R226): the rest of the state as it was. -/
def keyedEnd (e : Option CmdError) (s : State) : State :=
  { s with keyb := [], keylen := 0, eng := Engine.zero, busy := false, done := true, errcode := e }

/-- A byte store in canonical form with no index at or above `n`. -/
abbrev StoreOk (n : Nat) (m : Memory) : Prop := Memory.wf m ∧ Memory.within n m

/-- A slot as 10_state.md R45, R47 and 42_formatter.md R179 describe it: BUF is 0x00 from LEN up, LEN leaves room for
the NUL, a FREE slot is empty, a LIVE one has a generation other than 0. -/
structure SlotOk (c : Config) (sl : Slot) : Prop where
  buf  : StoreOk sl.len.toNat sl.buf
  len  : sl.len.toNat < c.slotBytes
  free : sl.state = .free → sl.len = 0 ∧ sl.buf = []
  live : sl.state = .live → sl.gen ≠ 0

/-- The machine's invariant. -/
structure Inv (s : State) : Prop where
  /-- MAX_BLOCKS and NUM_SLOTS are in their ranges (00_scope.md R5). -/
  cfg      : s.cfg.legal = true
  /-- The byte stores are canonical and within their sizes (10_state.md R37 to R40). -/
  keyb     : StoreOk 8 s.keyb
  din      : StoreOk 8 s.din
  dout     : StoreOk 8 s.dout
  ibuf     : StoreOk s.cfg.ibufBytes s.ibuf
  /-- The slot file has NUM_SLOTS slots, each as its rules say (10_state.md R45). -/
  count    : s.slots.length = s.cfg.numSlots
  slots    : ∀ sl ∈ s.slots, SlotOk s.cfg sl
  /-- A valid selection names a live handle (10_state.md R48; 43_commands.md R196, R197). -/
  selected : s.selv = true → live s s.selh = true
  /-- SK and the working registers are zero between steps (10_state.md R50, R51; 40_key_schedule.md R128). -/
  engine   : s.eng = Engine.zero
  /-- While busy, DONE is 0 and ERRCODE is 0 (10_state.md R25, 20_memory.md R79). -/
  busy     : s.busy = true → s.done = false ∧ s.errcode = none
  /-- RLEN is the length of a result (10_state.md R35). -/
  rlen     : s.rlen.toNat < s.cfg.slotBytes
  /-- RHANDLE is 0 or a handle the block can have issued (10_state.md R34, 30_encoding.md R104). -/
  rhandle  : s.rhandle = 0 ∨ (handleGen s.rhandle ≠ 0 ∧ handleSlot s.rhandle < s.cfg.numSlots)
  /-- While the reset input is asserted every element holds its reset value (70_reset_and_hazards.md R250). -/
  reset    : s.inReset = true →
    s = { State.resetOf s.cfg with inReset := true, turns := s.turns, replies := s.replies }

end Sys2Proof.Machine
end

