-- ==== Sys2Proof/Certificates/Slice0/Obligations.lean ====
section
/-! DEFINITION. The statements about the model, in the order of OBLIGATIONS.json. Each docstring names the rule of spec/
it formalises. `State.pop` is the state with the turn being taken removed; no statement rests on the value of `turns`. -/

open Sys2Proof Sys2Proof.Machine

/-! ### Encoding -/

/-- Words written out from the rows of 30_encoding.md R101, and illegal words of 95_test_vectors.md V-CMD-37. -/
def Obligations.DecoderReadsTheWordsOfTheTable : Prop :=
  decode 0x00000001 = .ok .enc ∧ decode 0x00000002 = .ok .dec ∧ decode 0x00000003 = .ok .encb ∧
  decode 0x00000004 = .ok .decb ∧ decode 0x00000005 = .ok .sel ∧ decode 0x00000006 = .ok .rel ∧
  decode 0x00000007 = .ok .clr ∧
  decode 0x00000000 = .error .reservedOp ∧ decode 0x00000008 = .error .reservedOp ∧
  decode 0x000000FF = .error .reservedOp ∧
  decode 0x00000101 = .error .reservedBits ∧ decode 0x80000001 = .error .reservedBits

/-- Over all 2^32 words: a word decodes to a command exactly where it is that command's word (R100, R101). -/
def Obligations.DecodeAndEncodeAgreeOnEveryWord : Prop :=
  ∀ (w : Word) (i : Instr), decode w = .ok i ↔ w = encode i

/-- R102: which words are legal; and an illegal one is accepted like any command and completes with IllegalCommand and
no other effect (R199). -/
def Obligations.IllegalWordsAreAcceptedAndEndInIllegalCommand : Prop :=
  ∀ (w : Word) (s : State),
    ((∃ i, decode w = .ok i) ↔
      w.extractLsb' 8 24 = 0 ∧ 1 ≤ (w.extractLsb' 0 8).toNat ∧ (w.extractLsb' 0 8).toNat ≤ 7) ∧
    (s.busy = false → hostMoves (.write 0x010 .four w) s →
      step s = .next { s with pcmd := w, busy := true, done := false, errcode := none,
                              turns := s.turns.tail, replies := .write .okay :: s.replies }) ∧
    ((¬∃ i, decode w = .ok i) → s.pcmd = w → sequencerMoves s →
      step s = .next { s with busy := false, done := true, errcode := some .illegalCommand, turns := s.turns.tail })

/-! ### The step -/

/-- R226, R60: where the sequencer moves and PCMD decodes to a command, the step is that command, the turn taken being
the only thing the step itself adds. -/
def Obligations.CompletionStepRunsTheCommandInPcmd : Prop :=
  ∀ (s : State) (i : Instr), completes i s → step s = exec i s.pop

/-- The state `withFetchWord` makes runs the word's command in the very next step (the model's own convention:
notes/assumptions/4.md). -/
def Obligations.PlacedWordRunsInTheNextStep : Prop :=
  ∀ (s : State) (nbits w : Nat) (i : Instr), decodeTableWord nbits w = some i →
    step (s.withFetchWord nbits w)
      = exec i { s with pcmd := BitVec.ofNat 32 (w % 2 ^ nbits), busy := true, done := false, errcode := none,
                        inReset := false }

/-- R190: a word written to CMD while idle is taken, whatever it is, and nothing else changes; while busy it is
dropped. -/
def Obligations.AcceptanceTakesTheWordAndNothingElse : Prop :=
  ∀ (s : State) (w : Word), hostMoves (.write 0x010 .four w) s →
    (s.busy = false →
      step s = .next { s with pcmd := w, busy := true, done := false, errcode := none,
                              turns := s.turns.tail, replies := .write .okay :: s.replies }) ∧
    (s.busy = true →
      step s = .next { s with werr := true, turns := s.turns.tail, replies := .write .okay :: s.replies })

/-- R226: the completion step, whatever the word, ends with BUSY 0 and DONE 1, and leaves WERR but for CLR. -/
def Obligations.EveryCompletionEndsTheCommand : Prop :=
  ∀ s : State, sequencerMoves s →
    ∃ t, step s = .next t ∧ t.busy = false ∧ t.done = true ∧
      (decode s.pcmd ≠ .ok .clr → t.werr = s.werr) ∧ (decode s.pcmd = .ok .clr → t.werr = false ∧ t.errcode = none) ∧
      ((∃ e, decode s.pcmd = .error e) → t.errcode = some .illegalCommand)

/-- R220: the block never stops. A step stops only where the outside world breaks a duty of its own: a transaction while
reset is asserted (93_implementation_defined.md U6), a release by a path that is not REL (U1). -/
def Obligations.OnlyTheOutsideWorldStopsTheMachine : Prop :=
  ∀ s : State,
    (∀ r, step s = .fault r ↔
      r = .hostDuringReset ∧ s.inReset = true ∧ ∃ x, s.turns.head? = some (.host x)) ∧
    (∀ r, step s = .refused r ↔ r = .crossAllocatorRelease ∧ ∃ h, s.turns.head? = some (.freeElsewhere h))

/-- R23, R53: the configuration is fixed; no step changes it. R5: the sizes derived from it. -/
def Obligations.NoStepChangesTheConfiguration : Prop :=
  (∀ s t : State, step s = .next t → t.cfg = s.cfg) ∧
  ∀ c : Config, c.ibufBytes = 16 * c.maxBlocks ∧ c.slotBytes = 16 * c.maxBlocks + 1 ∧
    c.maxMsg = 8 * c.maxBlocks - 1 ∧ c.maxHex = 16 * c.maxBlocks

/-! ### Reset -/

/-- R65: every element of the state after hardware reset, in every configuration. -/
def Obligations.ResetLeavesEveryElementAtItsValue : Prop :=
  ∀ c : Config,
    ctrlWord (State.resetOf c) = 0 ∧ statusWord (State.resetOf c) = 0 ∧
    (State.resetOf c).keylen = 0 ∧ (State.resetOf c).mlen = 0 ∧ (State.resetOf c).harg = 0 ∧
    (State.resetOf c).rhandle = 0 ∧ (State.resetOf c).rlen = 0 ∧
    (State.resetOf c).selv = false ∧ (State.resetOf c).selh = 0 ∧ (State.resetOf c).pcmd = 0 ∧
    (∀ sp a, byteAt (State.resetOf c) sp a = 0x00) ∧
    (State.resetOf c).slots.length = c.numSlots ∧
    (∀ sl ∈ (State.resetOf c).slots, sl.state = .free ∧ sl.gen = 0 ∧ sl.len = 0 ∧ sl.buf = []) ∧
    (∀ i : Fin 16, (State.resetOf c).eng.sk[i] = 0) ∧
    (State.resetOf c).eng.c = 0 ∧ (State.resetOf c).eng.d = 0 ∧
    (State.resetOf c).eng.l = 0 ∧ (State.resetOf c).eng.r = 0 ∧ (State.resetOf c).eng.round = 0 ∧
    (State.resetOf c).eng.block = 0 ∧ (State.resetOf c).eng.scratch = [] ∧
    ctrlRead (State.resetOf c) 0x000 = 0x44455331 ∧ ctrlRead (State.resetOf c) 0x004 = paramWord c ∧
    irq (State.resetOf c) = false

/-- R250: asserting reset puts every element at its reset value and drops a command in flight, with DONE 0; a
transaction while it is asserted has no move (93_implementation_defined.md U6); deasserting it changes nothing else.
That the values are taken at the assertion, and that a transaction then is a fault, is the model's choice
(notes/assumptions/5.md). -/
def Obligations.HardwareResetDropsTheCommandInFlight : Prop :=
  ∀ s : State,
    (s.turns.head? = some .assertReset →
      step s = .next { State.resetOf s.cfg with inReset := true, turns := s.turns.tail, replies := s.replies }) ∧
    (s.inReset = true → (∃ x, s.turns.head? = some (.host x)) → step s = .fault .hostDuringReset) ∧
    (Inv s → s.inReset = true → s.turns.head? = some .deassertReset →
      step s = .next { State.resetOf s.cfg with turns := s.turns.tail, replies := s.replies })

/-! ### The boundary commands -/

/-- R192, R200 with 42_formatter.md R175 and R179: ENC on an 8-byte key, a message of at most MAX_MSG bytes and a FREE
slot completes: the least FREE slot becomes LIVE with the next generation and holds the hex text of the encrypted
message, RHANDLE and RLEN name it, the key is consumed, and nothing else changes. -/
def Obligations.EncCompletesWithTheHexTextInTheLeastFreeSlot : Prop :=
  ∀ (s : State) (i : Nat) (sl : Slot) (text : List Byte),
    s.keylen = 8 → s.mlen.toNat ≤ s.cfg.maxMsg → LeastFree s i sl →
    text = encryptText (memRead .ibuf 0 s.mlen.toNat s) (deriveSchedule (be64 (memRead .keyb 0 8 s))) →
    ∃ (g : Gen) (m : Memory),
      exec .enc s = .next
        { s with slots := s.slots.set i { state := .live, gen := g, len := BitVec.ofNat 16 text.length, buf := m }
                 rhandle := g ++ BitVec.ofNat 4 i
                 rlen := BitVec.ofNat 16 text.length
                 keyb := [], keylen := 0, eng := Engine.zero
                 busy := false, done := true, errcode := none } ∧
      g = (if sl.gen + 1 = 0 then 1 else sl.gen + 1) ∧ Memory.wf m ∧ ∀ a, Memory.read m a = text.getD a 0x00

/-- R193, R200 with 42_formatter.md R176 and R179: DEC on an 8-byte key, a text that decrypts to a message and a FREE
slot completes: the least FREE slot holds the message and RHANDLE and RLEN name it. -/
def Obligations.DecCompletesWithTheMessageInTheLeastFreeSlot : Prop :=
  ∀ (s : State) (i : Nat) (sl : Slot) (msg : List Byte),
    s.keylen = 8 → s.mlen.toNat ≤ s.cfg.maxHex → LeastFree s i sl →
    decryptText (memRead .ibuf 0 s.mlen.toNat s) (deriveSchedule (be64 (memRead .keyb 0 8 s))) = some msg →
    ∃ (g : Gen) (m : Memory),
      exec .dec s = .next
        { s with slots := s.slots.set i { state := .live, gen := g, len := BitVec.ofNat 16 msg.length, buf := m }
                 rhandle := g ++ BitVec.ofNat 4 i
                 rlen := BitVec.ofNat 16 msg.length
                 keyb := [], keylen := 0, eng := Engine.zero
                 busy := false, done := true, errcode := none } ∧
      g = (if sl.gen + 1 = 0 then 1 else sl.gen + 1) ∧ Memory.wf m ∧ ∀ a, Memory.read m a = msg.getD a 0x00

/-- The frame of ENC and DEC, in every outcome (60_exceptions.md R224; 43_commands.md R192, R193): of the registers only
KEYLEN, RHANDLE, RLEN and STATUS may change, of the slots only the least FREE one, and every byte reads as before but
those of KEYB and of that slot. -/
def Obligations.BoundaryCommandsLeaveTheRestUnchanged : Prop :=
  ∀ (i : Instr) (s t : State), i = .enc ∨ i = .dec → exec i s = .next t →
    t.cfg = s.cfg ∧ t.irqEn = s.irqEn ∧ t.werr = s.werr ∧ t.mlen = s.mlen ∧ t.harg = s.harg ∧
    t.selv = s.selv ∧ t.selh = s.selh ∧ t.pcmd = s.pcmd ∧ t.inReset = s.inReset ∧ t.turns = s.turns ∧
    t.replies = s.replies ∧
    (∀ j, freeSlot s ≠ some j → t.slots[j]? = s.slots[j]?) ∧
    (∀ sp a, sp ≠ .keyb → (∀ j, freeSlot s = some j → sp ≠ .slot j) → byteAt t sp a = byteAt s sp a)

/-! ### The keyed frame and errors -/

/-- R191: every keyed command, in every outcome, clears KEYB and KEYLEN and leaves SK and the working registers zero;
and a key length other than 8 is the first error, with no slot changed. -/
def Obligations.KeyedCommandsConsumeTheKeyInEveryOutcome : Prop :=
  ∀ (i : Instr) (s : State), i.keyed = true →
    ∃ t, exec i s = .next t ∧ (∀ a, byteAt t .keyb a = 0x00) ∧ t.keylen = 0 ∧ t.eng = Engine.zero ∧
      (s.keylen ≠ 8 → t.errcode = some .invalidKeyLength ∧ t.slots = s.slots)

/-- R223: which error is reported when several apply, for every command; a character is malformed exactly where it is no
hexadecimal digit (42_formatter.md R173). -/
def Obligations.TheFirstErrorInPriorityOrderIsReported : Prop :=
  (∀ (i : Instr) (s : State), i.keyed = true → s.keylen ≠ 8 → EndsWith (exec i s) (some .invalidKeyLength)) ∧
  (∀ s : State, s.keylen = 8 → s.mlen.toNat > s.cfg.maxMsg → EndsWith (exec .enc s) (some .inputTooLong)) ∧
  (∀ s : State, s.keylen = 8 → s.mlen.toNat ≤ s.cfg.maxMsg → NoneFree s →
    EndsWith (exec .enc s) (some .noFreeHandle)) ∧
  (∀ s : State, s.keylen = 8 → s.mlen.toNat > s.cfg.maxHex → EndsWith (exec .dec s) (some .inputTooLong)) ∧
  (∀ s : State, s.keylen = 8 → s.mlen.toNat ≤ s.cfg.maxHex →
    (s.mlen = 0 ∨ s.mlen.toNat % 16 ≠ 0 ∨ ∃ ch ∈ memRead .ibuf 0 s.mlen.toNat s, ¬HexDigit ch) →
    EndsWith (exec .dec s) (some .malformedEncoding)) ∧
  (∀ s : State, s.keylen = 8 → s.mlen.toNat ≤ s.cfg.maxHex → s.mlen ≠ 0 → s.mlen.toNat % 16 = 0 →
    (∀ ch ∈ memRead .ibuf 0 s.mlen.toNat s, HexDigit ch) → NoneFree s →
    EndsWith (exec .dec s) (some .noFreeHandle)) ∧
  (∀ s : State, s.keylen = 8 → s.mlen.toNat ≤ s.cfg.maxHex → s.mlen ≠ 0 → s.mlen.toNat % 16 = 0 →
    (∀ ch ∈ memRead .ibuf 0 s.mlen.toNat s, HexDigit ch) → ¬NoneFree s →
    decryptText (memRead .ibuf 0 s.mlen.toNat s) (deriveSchedule (be64 (memRead .keyb 0 8 s))) = none →
    EndsWith (exec .dec s) (some .malformedEncoding)) ∧
  (∀ s : State, live s s.harg = false → EndsWith (exec .sel s) (some .useAfterRelease)) ∧
  (∀ s : State, live s s.harg = false → EndsWith (exec .rel s) (some .doubleRelease)) ∧
  (∀ (s : State) (e : DecodeError), decode s.pcmd = .error e → EndsWith (completion s) (some .illegalCommand))

/-- R224: exactly what a command that raises an error changes, an illegal word among them. -/
def Obligations.ErrorsHaveNoPartialEffect : Prop :=
  (∀ (i : Instr) (s t : State) (e : CmdError), exec i s = .next t → t.errcode = some e →
    (i = .enc ∨ i = .dec →
      t = { s with keyb := [], keylen := 0, eng := Engine.zero, rhandle := 0, rlen := 0,
                   busy := false, done := true, errcode := some e }) ∧
    (i = .encb ∨ i = .decb →
      t = { s with keyb := [], keylen := 0, eng := Engine.zero, dout := [],
                   busy := false, done := true, errcode := some e }) ∧
    (i = .sel → t = { s with selv := false, busy := false, done := true, errcode := some e }) ∧
    (i = .rel → t = { s with busy := false, done := true, errcode := some e }) ∧
    i ≠ .clr) ∧
  (∀ (s : State) (e : DecodeError), decode s.pcmd = .error e →
    completion s = .next { s with busy := false, done := true, errcode := some .illegalCommand })

/-! ### The raw transform commands -/

/-- R194: ENCB with an 8-byte key writes the encrypted block to DOUT and consumes the key; any other key length is
InvalidKeyLength and DOUT becomes zero. -/
def Obligations.EncbFollowsItsRule : Prop :=
  decode 0x00000003 = .ok .encb ∧ ∀ s : State, Memory.wf s.dout →
    (s.keylen = 8 → ∃ m : Memory,
      exec .encb s = .next { s with dout := m, keyb := [], keylen := 0, eng := Engine.zero,
                                    busy := false, done := true, errcode := none } ∧
      Memory.readBytes m 0 8 = bytes8 (transform (be64 (memRead .din 0 8 s))
        (deriveSchedule (be64 (memRead .keyb 0 8 s))) .encrypt) ∧
      ∀ a, 8 ≤ a → Memory.read m a = Memory.read s.dout a) ∧
    (s.keylen ≠ 8 →
      exec .encb s = .next { s with dout := [], keyb := [], keylen := 0, eng := Engine.zero,
                                    busy := false, done := true, errcode := some .invalidKeyLength })

/-- R195: DECB with an 8-byte key writes the decrypted block to DOUT and consumes the key; any other key length is
InvalidKeyLength and DOUT becomes zero. -/
def Obligations.DecbFollowsItsRule : Prop :=
  decode 0x00000004 = .ok .decb ∧ ∀ s : State, Memory.wf s.dout →
    (s.keylen = 8 → ∃ m : Memory,
      exec .decb s = .next { s with dout := m, keyb := [], keylen := 0, eng := Engine.zero,
                                    busy := false, done := true, errcode := none } ∧
      Memory.readBytes m 0 8 = bytes8 (transform (be64 (memRead .din 0 8 s))
        (deriveSchedule (be64 (memRead .keyb 0 8 s))) .decrypt) ∧
      ∀ a, 8 ≤ a → Memory.read m a = Memory.read s.dout a) ∧
    (s.keylen ≠ 8 →
      exec .decb s = .next { s with dout := [], keyb := [], keylen := 0, eng := Engine.zero,
                                    busy := false, done := true, errcode := some .invalidKeyLength })

/-- The frame of ENCB and DECB, in every outcome: of the registers only KEYLEN and STATUS may change, and every byte
reads as before but those of KEYB and DOUT (43_commands.md R194, R195). -/
def Obligations.RawCommandsLeaveTheRestUnchanged : Prop :=
  ∀ (i : Instr) (s t : State), i = .encb ∨ i = .decb → exec i s = .next t →
    t.cfg = s.cfg ∧ t.irqEn = s.irqEn ∧ t.werr = s.werr ∧ t.mlen = s.mlen ∧ t.harg = s.harg ∧
    t.rhandle = s.rhandle ∧ t.rlen = s.rlen ∧ t.slots = s.slots ∧
    t.selv = s.selv ∧ t.selh = s.selh ∧ t.pcmd = s.pcmd ∧ t.inReset = s.inReset ∧ t.turns = s.turns ∧
    t.replies = s.replies ∧
    (∀ sp a, sp ≠ .keyb → sp ≠ .dout → byteAt t sp a = byteAt s sp a)

/-! ### The handle commands -/

/-- R196: SEL of a live handle selects it; SEL of any other deselects and is UseAfterRelease; nothing else changes. -/
def Obligations.SelFollowsItsRule : Prop :=
  decode 0x00000005 = .ok .sel ∧ ∀ s : State,
    (live s s.harg = true →
      exec .sel s = .next { s with selv := true, selh := s.harg, busy := false, done := true, errcode := none }) ∧
    (live s s.harg = false →
      exec .sel s = .next { s with selv := false, busy := false, done := true, errcode := some .useAfterRelease })

/-- R197: REL of a live handle frees and empties its slot, keeps the generation, and clears SELV where that handle was
selected; REL of any other is DoubleRelease and changes nothing but STATUS. -/
def Obligations.RelFollowsItsRule : Prop :=
  decode 0x00000006 = .ok .rel ∧ ∀ s : State,
    (∀ sl : Slot, s.slots[handleSlot s.harg]? = some sl → sl.state = .live → sl.gen = handleGen s.harg →
      exec .rel s = .next
        { s with slots := s.slots.set (handleSlot s.harg) { state := .free, gen := sl.gen, len := 0, buf := [] }
                 selv := if s.selv = true ∧ s.selh = s.harg then false else s.selv
                 busy := false, done := true, errcode := none }) ∧
    (live s s.harg = false →
      exec .rel s = .next { s with busy := false, done := true, errcode := some .doubleRelease })

/-- The frame of SEL and REL, in every outcome: every register but STATUS, SELV and SELH (SEL) is unchanged, and every
byte reads as before but, for a successful REL, those of the released slot (43_commands.md R196, R197). -/
def Obligations.HandleCommandsLeaveTheRestUnchanged : Prop :=
  ∀ (i : Instr) (s t : State), i = .sel ∨ i = .rel → exec i s = .next t →
    t.cfg = s.cfg ∧ t.irqEn = s.irqEn ∧ t.werr = s.werr ∧ t.keylen = s.keylen ∧ t.mlen = s.mlen ∧ t.harg = s.harg ∧
    t.rhandle = s.rhandle ∧ t.rlen = s.rlen ∧ t.eng = s.eng ∧ t.pcmd = s.pcmd ∧ t.inReset = s.inReset ∧
    t.turns = s.turns ∧ t.replies = s.replies ∧
    (i = .rel → t.selh = s.selh) ∧
    (∀ j, i = .sel ∨ live s s.harg = false ∨ j ≠ handleSlot s.harg → t.slots[j]? = s.slots[j]?) ∧
    (∀ sp a, i = .sel ∨ live s s.harg = false ∨ sp ≠ .slot (handleSlot s.harg) → byteAt t sp a = byteAt s sp a)

/-- R197: once REL has answered, its handle is dead, and every handle of another slot is as live as before and reads the
same bytes, whether the release succeeded or not. -/
def Obligations.ReleaseKillsItsHandleAndNoOther : Prop :=
  ∀ s t : State, exec .rel s = .next t →
    live t s.harg = false ∧
    ∀ h : Word, handleSlot h ≠ handleSlot s.harg →
      live t h = live s h ∧ ∀ a, byteAt t (.slot (handleSlot h)) a = byteAt s (.slot (handleSlot h)) a

/-! ### The system command -/

/-- R198, R252: CLR completes; it leaves every element at its reset value except that CTRL and every GEN are kept and
DONE is 1; and no handle is live afterwards. -/
def Obligations.ClrFollowsItsRule : Prop :=
  decode 0x00000007 = .ok .clr ∧ ∀ s : State, ∃ t,
    exec .clr s = .next t ∧
    t = { State.resetOf s.cfg with
            irqEn := s.irqEn
            slots := s.slots.map fun sl => { state := .free, gen := sl.gen, len := 0, buf := [] }
            done := true, inReset := s.inReset, turns := s.turns, replies := s.replies } ∧
    (∀ h, live t h = false) ∧ (∀ sp a, byteAt t sp a = 0x00) ∧ irq t = s.irqEn

/-! ### Handles and slots -/

/-- R200, R104: the handle that a successful ENC or DEC returns is live afterwards, was not live before, is not 0, and
every handle live before is live still. -/
def Obligations.NewHandlesAreFreshAndLive : Prop :=
  ∀ (i : Instr) (s t : State), Inv s → i = .enc ∨ i = .dec → exec i s = .next t → t.errcode = none →
    live t t.rhandle = true ∧ live s t.rhandle = false ∧ t.rhandle ≠ 0 ∧
    ∀ h, live s h = true → live t h = true

/-- R47: which handles are live, over all 2^32; and one whose generation field is 0, as 0 is, is live in no state that
meets the invariant. -/
def Obligations.LiveHandlesAreThoseOfLiveSlots : Prop :=
  ∀ (s : State) (h : Word),
    (s.slots.length = s.cfg.numSlots →
      (live s h = true ↔ (h.extractLsb' 0 4).toNat < s.cfg.numSlots ∧
        ∃ sl, s.slots[(h.extractLsb' 0 4).toNat]? = some sl ∧ sl.state = .live ∧ sl.gen = h.extractLsb' 4 28)) ∧
    (Inv s → h.extractLsb' 4 28 = 0 → live s h = false)

/-- R222: a LIVE slot is changed by nothing but REL of its handle, CLR and hardware reset. -/
def Obligations.LiveSlotsChangeOnlyByReleaseClearOrReset : Prop :=
  ∀ (s t : State) (j : Nat) (sl : Slot), step s = .next t → s.slots[j]? = some sl → sl.state = .live →
    t.slots[j]? ≠ some sl →
    (completes .rel s ∧ live s s.harg = true ∧ handleSlot s.harg = j) ∨ completes .clr s ∨
      s.turns.head? = some .assertReset

/-- R260: the generation counter skips 0 and comes back after 2^28 - 1 allocations of one slot, not before. -/
def Obligations.GenerationsRepeatOnlyAfterTheWrap : Prop :=
  ∀ g : Gen, nextGen g ≠ 0 ∧
    (g ≠ 0 → nextGen^[2 ^ 28 - 1] g = g ∧ ∀ n, 0 < n → n < 2 ^ 28 - 1 → nextGen^[n] g ≠ g)

/-- R261: the release of the selected handle clears SELV, and the window then reads 0; SELV is set by nothing but a
successful SEL. R48: SELH changes only by SEL, CLR and reset. -/
def Obligations.OnlySelSelects : Prop :=
  ∀ s t : State, step s = .next t →
    (completes .rel s → s.selv = true → s.selh = s.harg → live s s.harg = true →
      t.selv = false ∧ ∀ o : Offset, 0x800 ≤ o.toNat → replyOf t (.read o .one) = .read 0 .okay) ∧
    (s.selv = false → t.selv = true → completes .sel s ∧ live s s.harg = true ∧ t.selh = s.harg) ∧
    (t.selh ≠ s.selh → completes .sel s ∨ completes .clr s ∨ s.turns.head? = some .assertReset)

/-! ### STATUS and the interrupt -/

/-- R26: BUSY is set by the acceptance of a command and by nothing else, and cleared by a completion (CLR's too) and by
reset and by nothing else; with BUSY = 0 the sequencer's turn changes nothing. -/
def Obligations.BusyChangesOnlyByAcceptanceCompletionOrReset : Prop :=
  ∀ s t : State, step s = .next t →
    (s.busy = false → (t.busy = true ↔ ∃ w, hostMoves (.write 0x010 .four w) s)) ∧
    (s.busy = true → (t.busy = false ↔ sequencerMoves s ∨ s.turns.head? = some .assertReset)) ∧
    (s.busy = false → s.turns = [] ∨ s.turns.head? = some .core → t = s.pop)

/-- R27: DONE is set by every completion, CLR's too, and by nothing else, and cleared by acceptance, by a host write of
STATUS with bit 1 set and by reset, and by nothing else. -/
def Obligations.DoneChangesOnlyByItsWriters : Prop :=
  ∀ s t : State, step s = .next t →
    (sequencerMoves s → t.done = true) ∧
    (s.done = false → (t.done = true ↔ sequencerMoves s)) ∧
    (s.done = true → (t.done = false ↔
      (s.busy = false ∧ ∃ w, hostMoves (.write 0x010 .four w) s) ∨
      (∃ w : Word, hostMoves (.write 0x00C .four w) s ∧ w.getLsbD 1 = true) ∨
      s.turns.head? = some .assertReset))

/-- R28: WERR is set by a write dropped because the block is busy and by nothing else, and cleared by a host write of
STATUS with bit 2 set, by reset and by CLR, and by nothing else. -/
def Obligations.WerrChangesOnlyByItsWriters : Prop :=
  ∀ s t : State, step s = .next t →
    (s.werr = false → (t.werr = true ↔
      s.busy = true ∧ ∃ o sz w, hostMoves (.write o sz w) s ∧ legalAccess o sz = true ∧
        commandInput s.cfg o.toNat)) ∧
    (s.werr = true → (t.werr = false ↔
      (∃ w : Word, hostMoves (.write 0x00C .four w) s ∧ w.getLsbD 2 = true) ∨
      s.turns.head? = some .assertReset ∨ completes .clr s))

/-- R29, R221, R223: every acceptance leaves ERRCODE 0, every completion writes the code of its command, 0 for success,
reset clears it, and nothing else, no other host write among them, changes it. -/
def Obligations.ErrcodeChangesOnlyByItsWriters : Prop :=
  ∀ s t : State, step s = .next t →
    (∀ w, hostMoves (.write 0x010 .four w) s → s.busy = false → t.errcode = none) ∧
    (∀ i, completes i s → t.errcode = firstError i s) ∧
    (∀ e, sequencerMoves s → decode s.pcmd = .error e → t.errcode = some .illegalCommand) ∧
    (s.turns.head? = some .assertReset → t.errcode = none) ∧
    (t.errcode ≠ s.errcode →
      (s.busy = false ∧ ∃ w, hostMoves (.write 0x010 .four w) s) ∨ sequencerMoves s ∨
        s.turns.head? = some .assertReset)

/-- R227: the interrupt output is IRQ_EN and DONE; a completion raises it where IRQ_EN is 1; clearing DONE or accepting
a command lowers it; reset leaves it low. -/
def Obligations.InterruptFollowsDoneAndEnable : Prop :=
  ∀ s t : State,
    irq s = (s.irqEn && s.done) ∧
    (sequencerMoves s → step s = .next t → irq t = s.irqEn) ∧
    (∀ w : Word, hostMoves (.write 0x00C .four w) s → w.getLsbD 1 = true → step s = .next t → irq t = false) ∧
    (∀ w : Word, hostMoves (.write 0x010 .four w) s → s.busy = false → step s = .next t → irq t = false) ∧
    (s.turns.head? = some .assertReset → step s = .next t → irq t = false)

/-! ### Host access -/

/-- R72: which transactions get an ERROR response, that such a one changes no state and reads 0, and that every other
gets OKAY. -/
def Obligations.IllegalTransactionsGetErrorAndHaveNoEffect : Prop :=
  ∀ (s : State) (o : Offset) (sz : Size) (w : Word),
    (sz = .two ∨ (sz = .four ∧ o.toNat % 4 ≠ 0) ∨ (sz = .one ∧ o.toNat < 0x030) →
      (hostMoves (.read o sz) s →
        step s = .next { s with turns := s.turns.tail, replies := .read 0 .error :: s.replies }) ∧
      (hostMoves (.write o sz w) s →
        step s = .next { s with turns := s.turns.tail, replies := .write .error :: s.replies })) ∧
    ((sz = .four ∧ o.toNat % 4 = 0) ∨ (sz = .one ∧ 0x030 ≤ o.toNat) →
      (hostMoves (.read o sz) s → ∃ t v, step s = .next t ∧ t.replies = .read v .okay :: s.replies) ∧
      (hostMoves (.write o sz w) s → ∃ t, step s = .next t ∧ t.replies = .write .okay :: s.replies))

/-- R79: a read changes nothing but what the host has seen; while busy, RHANDLE, RLEN, SEL, DOUT and the OBUF window
read 0, STATUS reads BUSY 1, DONE 0, ERRCODE 0, and every other offset reads what it reads while idle. -/
def Obligations.ReadsHaveNoSideEffectAndResultsReadZeroWhileBusy : Prop :=
  ∀ (s : State) (o : Offset) (sz : Size), hostMoves (.read o sz) s →
    ∃ r, step s = .next { s with turns := s.turns.tail, replies := r :: s.replies } ∧
      (s.busy = true → legalAccess o sz = true →
        (o.toNat = 0x020 ∨ o.toNat = 0x024 ∨ o.toNat = 0x028 ∨ (0x040 ≤ o.toNat ∧ o.toNat ≤ 0x047) ∨
          0x800 ≤ o.toNat → r = .read 0 .okay) ∧
        (Inv s → o.toNat = 0x00C → r = .read (if s.werr then 0x00000005 else 0x00000001) .okay) ∧
        (¬(o.toNat = 0x020 ∨ o.toNat = 0x024 ∨ o.toNat = 0x028 ∨ (0x040 ≤ o.toNat ∧ o.toNat ≤ 0x047) ∨
          0x800 ≤ o.toNat ∨ o.toNat = 0x00C) → r = replyOf { s with busy := false } (.read o sz)))

/-- R78: a write of a command's input while busy is dropped, sets WERR, and is answered OKAY; CTRL and STATUS writes
take effect. -/
def Obligations.WritesWhileBusyAreDroppedAndSetWerr : Prop :=
  ∀ (s : State) (o : Offset) (sz : Size) (w : Word), s.busy = true → hostMoves (.write o sz w) s →
    (legalAccess o sz = true → commandInput s.cfg o.toNat →
      step s = .next { s with werr := true, turns := s.turns.tail, replies := .write .okay :: s.replies }) ∧
    (o.toNat = 0x008 → sz = .four →
      step s = .next { s with irqEn := w.getLsbD 0, turns := s.turns.tail, replies := .write .okay :: s.replies }) ∧
    (o.toNat = 0x00C → sz = .four →
      step s = .next { s with done := if w.getLsbD 1 then false else s.done
                              werr := if w.getLsbD 2 then false else s.werr
                              turns := s.turns.tail, replies := .write .okay :: s.replies })

/-- R75: a byte write while idle stores the byte in KEYB, DIN or IBUF and changes no other byte and nothing else; while
busy it sets WERR instead; at any other offset it has no effect. -/
def Obligations.ByteWritesStoreOneByte : Prop :=
  ∀ (s : State) (o : Offset) (w : Word), Inv s → hostMoves (.write o .one w) s → 0x030 ≤ o.toNat →
    (s.busy = true →
      step s = .next { s with
        werr := if (o.toNat ≤ 0x03F) ∨ (0x400 ≤ o.toNat ∧ o.toNat < 0x400 + s.cfg.ibufBytes) then true else s.werr
        turns := s.turns.tail, replies := .write .okay :: s.replies }) ∧
    (s.busy = false → ∃ t, step s = .next t ∧
      t = { s with keyb := t.keyb, din := t.din, ibuf := t.ibuf
                   turns := s.turns.tail, replies := .write .okay :: s.replies } ∧
      (∀ a, byteAt t .keyb a
        = if o.toNat ≤ 0x037 ∧ a = o.toNat - 0x030 then w.extractLsb' 0 8 else byteAt s .keyb a) ∧
      (∀ a, byteAt t .din a
        = if 0x038 ≤ o.toNat ∧ o.toNat ≤ 0x03F ∧ a = o.toNat - 0x038 then w.extractLsb' 0 8 else byteAt s .din a) ∧
      (∀ a, byteAt t .ibuf a
        = if 0x400 ≤ o.toNat ∧ o.toNat < 0x400 + s.cfg.ibufBytes ∧ a = o.toNat - 0x400 then w.extractLsb' 0 8
          else byteAt s .ibuf a))

/-- R77: a 32-bit write of each control register does what its line says and nothing else, busy or idle. -/
def Obligations.ControlRegisterWritesFollowTheirLines : Prop :=
  ∀ (s : State) (o : Offset) (w : Word), hostMoves (.write o .four w) s → o.toNat < 0x030 → o.toNat % 4 = 0 →
    ∃ t, step s = .next { t with turns := s.turns.tail, replies := .write .okay :: s.replies } ∧
      (o.toNat = 0x008 → t = { s with irqEn := w.getLsbD 0 }) ∧
      (o.toNat = 0x00C → t = { s with done := if w.getLsbD 1 then false else s.done
                                      werr := if w.getLsbD 2 then false else s.werr }) ∧
      (o.toNat = 0x010 ∨ o.toNat = 0x014 ∨ o.toNat = 0x018 ∨ o.toNat = 0x01C → s.busy = true →
        t = { s with werr := true }) ∧
      (s.busy = false →
        (o.toNat = 0x010 → t = { s with pcmd := w, busy := true, done := false, errcode := none }) ∧
        (o.toNat = 0x014 → t = { s with keylen := w }) ∧
        (o.toNat = 0x018 → t = { s with mlen := w }) ∧
        (o.toNat = 0x01C → t = { s with harg := w })) ∧
      (o.toNat = 0x000 ∨ o.toNat = 0x004 ∨ o.toNat = 0x020 ∨ o.toNat = 0x024 ∨ o.toNat = 0x028 ∨ o.toNat = 0x02C →
        t = s)

/-- R76: what a 32-bit read of each control register answers, with the code of each error written out (R221). That
KEYLEN is read back, where 92_eei_decisions.md D19 calls it write-only, is the model's choice
(notes/assumptions/19.md). -/
def Obligations.ControlRegisterReadsFollowTheirLines : Prop :=
  ∀ (s : State) (o : Offset), o.toNat < 0x030 → o.toNat % 4 = 0 →
    ∃ v, replyOf s (.read o .four) = .read v .okay ∧
      (o.toNat = 0x000 → v = 0x44455331) ∧
      (o.toNat = 0x004 → v = BitVec.ofNat 20 0 ++ BitVec.ofNat 4 s.cfg.numSlots ++ BitVec.ofNat 8 s.cfg.maxBlocks) ∧
      (o.toNat = 0x008 → v = if s.irqEn then 1 else 0) ∧
      (o.toNat = 0x00C → v.getLsbD 0 = s.busy ∧ v.getLsbD 1 = s.done ∧ v.getLsbD 2 = s.werr ∧ v.getLsbD 3 = false ∧
        v.extractLsb' 8 24 = 0 ∧ (s.errcode = none → v.extractLsb' 4 4 = 0) ∧
        (s.errcode = some .invalidKeyLength → v.extractLsb' 4 4 = 1) ∧
        (s.errcode = some .inputTooLong → v.extractLsb' 4 4 = 2) ∧
        (s.errcode = some .malformedEncoding → v.extractLsb' 4 4 = 3) ∧
        (s.errcode = some .doubleRelease → v.extractLsb' 4 4 = 4) ∧
        (s.errcode = some .useAfterRelease → v.extractLsb' 4 4 = 5) ∧
        (s.errcode = some .illegalCommand → v.extractLsb' 4 4 = 6) ∧
        (s.errcode = some .noFreeHandle → v.extractLsb' 4 4 = 7)) ∧
      (o.toNat = 0x010 → v = 0) ∧ (o.toNat = 0x014 → v = s.keylen) ∧ (o.toNat = 0x018 → v = s.mlen) ∧
      (o.toNat = 0x01C → v = s.harg) ∧
      (o.toNat = 0x020 → v = if s.busy then 0 else s.rhandle) ∧
      (o.toNat = 0x024 → v = if s.busy then 0 else BitVec.ofNat 32 s.rlen.toNat) ∧
      (o.toNat = 0x028 → v = if s.busy = false ∧ s.selv = true then
        (s.slots.getD (handleSlot s.selh) Slot.initial).len ++ (1 : BitVec 16) else 0) ∧
      (o.toNat = 0x02C → v = 0)

/-- R74, R41: what a byte read answers at every offset outside the control region, the OBUF window among them; and a
write to the window changes nothing. -/
def Obligations.WindowReadsTheSelectedSlotOrZero : Prop :=
  ∀ (s : State) (o : Offset),
    (0x030 ≤ o.toNat → o.toNat ≤ 0x037 → replyOf s (.read o .one) = .read 0 .okay) ∧
    (0x038 ≤ o.toNat → o.toNat ≤ 0x03F →
      replyOf s (.read o .one) = .read (BitVec.setWidth 32 (byteAt s .din (o.toNat - 0x038))) .okay) ∧
    (0x040 ≤ o.toNat → o.toNat ≤ 0x047 →
      replyOf s (.read o .one)
        = .read (if s.busy = true then 0 else BitVec.setWidth 32 (byteAt s .dout (o.toNat - 0x040))) .okay) ∧
    (0x048 ≤ o.toNat → o.toNat ≤ 0x3FF → replyOf s (.read o .one) = .read 0 .okay) ∧
    (0x400 ≤ o.toNat → o.toNat ≤ 0x7FF →
      replyOf s (.read o .one)
        = .read (if o.toNat - 0x400 < s.cfg.ibufBytes then
            BitVec.setWidth 32 (byteAt s .ibuf (o.toNat - 0x400)) else 0) .okay) ∧
    (0x800 ≤ o.toNat →
      replyOf s (.read o .one)
        = .read (if s.busy = false ∧ s.selv = true ∧ live s s.selh = true ∧ o.toNat - 0x800 < s.cfg.slotBytes then
            BitVec.setWidth 32 (byteAt s (.slot (s.selh.extractLsb' 0 4).toNat) (o.toNat - 0x800)) else 0) .okay) ∧
    (0x800 ≤ o.toNat → s.cfg.legal = true → ∀ sz w, applyXact (.write o sz w) s = s)

/-- R73, R81: outside the control region a 32-bit read is the four byte reads, and a 32-bit write leaves the state that
the four byte writes leave, the byte at offset `o + i` in data bits `8i+7 : 8i`. -/
def Obligations.WordAccessesAreFourByteAccesses : Prop :=
  ∀ (s : State) (o : Offset) (w : Word), o.toNat % 4 = 0 → 0x030 ≤ o.toNat →
    (∃ b0 b1 b2 b3 : Byte,
      replyOf s (.read o .four) = .read (b3 ++ b2 ++ b1 ++ b0) .okay ∧
      replyOf s (.read o .one) = .read (b0.setWidth 32) .okay ∧
      replyOf s (.read (o + 1) .one) = .read (b1.setWidth 32) .okay ∧
      replyOf s (.read (o + 2) .one) = .read (b2.setWidth 32) .okay ∧
      replyOf s (.read (o + 3) .one) = .read (b3.setWidth 32) .okay) ∧
    applyXact (.write o .four w) s
      = applyXact (.write (o + 3) .one ((w.extractLsb' 24 8).setWidth 32))
          (applyXact (.write (o + 2) .one ((w.extractLsb' 16 8).setWidth 32))
            (applyXact (.write (o + 1) .one ((w.extractLsb' 8 8).setWidth 32))
              (applyXact (.write o .one ((w.extractLsb' 0 8).setWidth 32)) s)))

/-- R37, R50, R231: the key cannot be read back. Unless the step is the completion of a keyed command, two machines that
differ only in KEYB take steps that differ in nothing but KEYB; what the host has seen is the same. -/
def Obligations.TheKeyRegisterIsNeverReadBack : Prop :=
  ∀ (s t : State) (m : Memory), (¬∃ i : Instr, i.keyed = true ∧ completes i s) → step s = .next t →
    ∃ m', step { s with keyb := m } = .next { t with keyb := m' }

/-- R192, 93_implementation_defined.md U10: what IBUF holds at and above MLEN has no effect on any command: with another
IBUF that agrees below MLEN, the command ends alike, and IBUF is then as it was given (CLR clears it). -/
def Obligations.BytesAtAndAboveMlenAreNotRead : Prop :=
  ∀ (i : Instr) (s t : State) (m : Memory), (∀ a, a < s.mlen.toNat → Memory.read m a = Memory.read s.ibuf a) →
    exec i s = .next t →
    exec i { s with ibuf := m } = .next { t with ibuf := if i = .clr then [] else m }

/-! ### The cipher -/

/-- The source's known-answer vector and the schedule's worked example (95_test_vectors.md L1-1; 40_key_schedule.md R126;
41_feistel.md R154), and the text of "hello" under its key (V-FM-4), which pins the byte and character orders. -/
def Obligations.KnownAnswerVectorHolds : Prop :=
  (deriveSchedule 0x133457799BBCDFF1)[0] = 0x1B02EFFC7072 ∧
  (deriveSchedule 0x133457799BBCDFF1)[15] = 0xCB3D8B0E17F5 ∧
  transform 0x0123456789ABCDEF (deriveSchedule 0x133457799BBCDFF1) .encrypt = 0x85E813540F0AB405 ∧
  transform 0x85E813540F0AB405 (deriveSchedule 0x133457799BBCDFF1) .decrypt = 0x0123456789ABCDEF ∧
  encryptText [0x68, 0x65, 0x6C, 0x6C, 0x6F]
      (deriveSchedule (be64 [0x13, 0x34, 0x57, 0x79, 0x9B, 0xBC, 0xDF, 0xF1]))
    = [0x31, 0x38, 0x30, 0x46, 0x38, 0x42, 0x30, 0x34, 0x34, 0x41, 0x32, 0x31, 0x31, 0x44, 0x34, 0x37]

/-- R157: for every schedule and block, each direction undoes the other. -/
def Obligations.DecryptionInvertsEncryption : Prop :=
  ∀ (sk : Schedule) (x : Block),
    transform (transform x sk .encrypt) sk .decrypt = x ∧ transform (transform x sk .decrypt) sk .encrypt = x

/-- R141: FP is the inverse of IP, entry by entry and as permutations of 64 bits. -/
def Obligations.FinalPermutationInvertsInitialPermutation : Prop :=
  (∀ j, j < 64 → fp.getD (ip.getD j 0 - 1) 0 = j + 1) ∧
  ∀ x : Block, permute 64 fp (permute 64 ip x) = x ∧ permute 64 ip (permute 64 fp x) = x

/-- R123: the rotation amounts are 1 or 2 and sum to 28, so C and D come back after the 16 rounds. -/
def Obligations.RotationsBringTheHalvesBack : Prop :=
  shifts = [1, 1, 2, 2, 2, 2, 2, 2, 1, 2, 2, 2, 2, 2, 2, 1] ∧ shifts.sum = 28 ∧
  ∀ cd : KeyHalf × KeyHalf, shifts.foldl rotateHalves cd = cd

/-- R127: bits that differ only at bit 0 of key bytes do not change the schedule or any output, and no key is rejected
for its value: ENCB and DECB complete without error under every key, and no keyed command raises InvalidKeyLength. -/
def Obligations.ParityBitsHaveNoEffect : Prop :=
  (∀ k k' : Key, (∀ j, j < 64 → j % 8 ≠ 0 → k.getLsbD j = k'.getLsbD j) →
    deriveSchedule k = deriveSchedule k' ∧
    ∀ (x : Block) (dir : Dir), transform x (deriveSchedule k) dir = transform x (deriveSchedule k') dir) ∧
  (∀ (s : State) (m : Memory), s.keylen = 8 →
    EndsWith (exec .encb { s with keyb := m }) none ∧ EndsWith (exec .decb { s with keyb := m }) none ∧
    ∀ i : Instr, i.keyed = true → ¬EndsWith (exec i { s with keyb := m }) (some .invalidKeyLength))

/-! ### The formatter -/

/-- R174: of the sequences of one or more whole blocks, exactly those that end in `p` bytes of value `p`, 1 to 8, unpad,
to what stands before them. -/
def Obligations.UnpadAcceptsExactlyThePaddedSequences : Prop :=
  ∀ t m : List Byte, 8 ≤ t.length → t.length % 8 = 0 →
    (unpad t = some m ↔ ∃ p, 1 ≤ p ∧ p ≤ 8 ∧ t = m ++ List.replicate p (BitVec.ofNat 8 p))

/-- R172, R175, R177, R181: the text of an `n`-byte message is 16 characters for each of its `n/8 + 1` blocks, one block
for the empty message, all of them upper-case hexadecimal digits and so none of them NUL. -/
def Obligations.EncryptedTextIsUpperCaseHexOfWholeBlocks : Prop :=
  ∀ (m : List Byte) (sk : Schedule),
    (encryptText m sk).length = 16 * (m.length / 8 + 1) ∧
    ∀ ch ∈ encryptText m sk, (0x30 ≤ ch.toNat ∧ ch.toNat ≤ 0x39) ∨ (0x41 ≤ ch.toNat ∧ ch.toNat ≤ 0x46)

/-- R173: the value of each digit, that every other byte is invalid, and what a text of even length decodes to. R182:
both letter cases are accepted, mixed in one text too: turning upper-case hexadecimal letters into lower-case ones changes
no decoding, and so no DEC result. -/
def Obligations.LetterCaseDoesNotChangeADecoding : Prop :=
  (∀ ch : Byte,
    (0x30 ≤ ch.toNat → ch.toNat ≤ 0x39 → hexVal ch = some (ch.toNat - 0x30)) ∧
    (0x41 ≤ ch.toNat → ch.toNat ≤ 0x46 → hexVal ch = some (ch.toNat - 0x41 + 10)) ∧
    (0x61 ≤ ch.toNat → ch.toNat ≤ 0x66 → hexVal ch = some (ch.toNat - 0x61 + 10)) ∧
    (¬HexDigit ch → hexVal ch = none)) ∧
  (∀ h c : List Byte, h.length % 2 = 0 →
    (hexDecode h = some c ↔ h.length = 2 * c.length ∧
      ∀ j, j < c.length → ∃ x y, hexVal (h.getD (2 * j) 0) = some x ∧ hexVal (h.getD (2 * j + 1) 0) = some y ∧
        (c.getD j 0).toNat = x * 16 + y)) ∧
  ∀ (h : List Byte) (sk : Schedule),
    hexDecode (h.map fun ch => if 0x41 ≤ ch.toNat ∧ ch.toNat ≤ 0x46 then ch + 0x20 else ch) = hexDecode h ∧
    decryptText (h.map fun ch => if 0x41 ≤ ch.toNat ∧ ch.toNat ≤ 0x46 then ch + 0x20 else ch) sk = decryptText h sk

/-- R180: for every key and every message up to MAX_MSG, in every configuration, decrypting the encrypted text gives the
message, and the text fits a DEC. -/
def Obligations.DecryptedTextOfAnEncryptedMessageIsTheMessage : Prop :=
  ∀ (c : Config) (k : Key) (m : List Byte), c.legal = true → m.length ≤ c.maxMsg →
    decryptText (encryptText m (deriveSchedule k)) (deriveSchedule k) = some m ∧
    (encryptText m (deriveSchedule k)).length ≤ c.maxHex

/-- R180 on the machine: a DEC that finds in IBUF the text of an encrypted message, and the same key, completes and puts
the message itself, then 0x00, in the least FREE slot. -/
def Obligations.DecReturnsTheMessageThatWasEncrypted : Prop :=
  ∀ (s : State) (i : Nat) (sl : Slot) (m : List Byte),
    s.cfg.legal = true → s.keylen = 8 → m.length ≤ s.cfg.maxMsg → LeastFree s i sl →
    s.mlen.toNat = (encryptText m (deriveSchedule (be64 (memRead .keyb 0 8 s)))).length →
    memRead .ibuf 0 s.mlen.toNat s = encryptText m (deriveSchedule (be64 (memRead .keyb 0 8 s))) →
    ∃ t sl', exec .dec s = .next t ∧ t.errcode = none ∧ t.slots[i]? = some sl' ∧ sl'.state = .live ∧
      sl'.len.toNat = m.length ∧ t.rlen = sl'.len ∧ Memory.readBytes sl'.buf 0 (m.length + 1) = m ++ [0x00]

/-! ### The invariant -/

/-- The invariant holds after hardware reset, in every legal configuration. -/
def Obligations.ResetMeetsTheInvariant : Prop :=
  (∀ c : Config, c.legal = true → Inv (State.resetOf c)) ∧ Inv State.reset

/-- Every step keeps the invariant: canonical byte stores within their sizes, a slot file whose FREE slots are empty and
whose LIVE slots have a generation, a selection that is live, hidden registers that are zero, DONE and ERRCODE 0 while
busy (10_state.md R45, R47, R48, R50, R51; 20_memory.md R79; 40_key_schedule.md R128; 42_formatter.md R179). -/
def Obligations.EveryStepKeepsTheInvariant : Prop :=
  ∀ s t : State, Inv s → step s = .next t → Inv t

/-! ### Termination and the host notation -/

/-- R263, R262: an accepted command completes (or is dropped by reset) within as many steps as there are turns listed,
and one more, whatever the turns are, as long as none of them claims a release by another path. -/
def Obligations.BusyEndsWithinTheTurnsListed : Prop :=
  ∀ s : State, s.busy = true → s.inReset = false → (∀ h, Turn.freeElsewhere h ∉ s.turns) →
    ∃ k t, k ≤ s.turns.length + 1 ∧ Sys2Proof.core.run k s = .next t ∧ t.busy = false

/-- R107: of the STATUS reads of a WAIT on an accepted command, each before the last returns BUSY 1 and the last, after
the completion, returns BUSY 0, however many there are. -/
def Obligations.WaitReadsBusyUntilTheCompletion : Prop :=
  ∀ (s : State) (n : Nat) (rest : List Turn), s.busy = true → s.inReset = false →
    s.turns = expandLine (.wait n) ++ rest →
    ∃ (t : State) (v : Word) (vs : List Word), Sys2Proof.core.run (n + 2) s = .next t ∧ t.turns = rest ∧
      t.replies = Reply.read v .okay :: (vs.map fun x => Reply.read x .okay) ++ s.replies ∧
      vs.length = n ∧ v.getLsbD 0 = false ∧ ∀ x ∈ vs, x.getLsbD 0 = true

/-- R107, R81: the two writes of a KEY line put the key in KEYB, most significant byte first. -/
def Obligations.KeyLineLoadsTheKey : Prop :=
  ∀ (s : State) (k : Key) (rest : List Turn), Inv s → s.busy = false → s.inReset = false →
    s.turns = expandLine (.key k) ++ rest →
    ∃ t, Sys2Proof.core.run 2 s = .next t ∧ keyOperand t = k ∧
      t = { s with keyb := t.keyb, turns := rest, replies := .write .okay :: .write .okay :: s.replies }
end

