-- ==== Sys2Proof/Laws/State.lean ====
section
/-! SUPPORT. One lemma per field per named update of State: what the field is after the update, by rfl. -/

namespace Sys2Proof.Machine

/-! ### accept -/

@[simp] theorem accept_cfg (w : Word) (s : State) : (accept w s).cfg = s.cfg := rfl
@[simp] theorem accept_irqEn (w : Word) (s : State) : (accept w s).irqEn = s.irqEn := rfl
@[simp] theorem accept_busy (w : Word) (s : State) : (accept w s).busy = true := rfl
@[simp] theorem accept_done (w : Word) (s : State) : (accept w s).done = false := rfl
@[simp] theorem accept_werr (w : Word) (s : State) : (accept w s).werr = s.werr := rfl
@[simp] theorem accept_errcode (w : Word) (s : State) : (accept w s).errcode = none := rfl
@[simp] theorem accept_keylen (w : Word) (s : State) : (accept w s).keylen = s.keylen := rfl
@[simp] theorem accept_mlen (w : Word) (s : State) : (accept w s).mlen = s.mlen := rfl
@[simp] theorem accept_harg (w : Word) (s : State) : (accept w s).harg = s.harg := rfl
@[simp] theorem accept_rhandle (w : Word) (s : State) : (accept w s).rhandle = s.rhandle := rfl
@[simp] theorem accept_rlen (w : Word) (s : State) : (accept w s).rlen = s.rlen := rfl
@[simp] theorem accept_keyb (w : Word) (s : State) : (accept w s).keyb = s.keyb := rfl
@[simp] theorem accept_din (w : Word) (s : State) : (accept w s).din = s.din := rfl
@[simp] theorem accept_dout (w : Word) (s : State) : (accept w s).dout = s.dout := rfl
@[simp] theorem accept_ibuf (w : Word) (s : State) : (accept w s).ibuf = s.ibuf := rfl
@[simp] theorem accept_slots (w : Word) (s : State) : (accept w s).slots = s.slots := rfl
@[simp] theorem accept_selv (w : Word) (s : State) : (accept w s).selv = s.selv := rfl
@[simp] theorem accept_selh (w : Word) (s : State) : (accept w s).selh = s.selh := rfl
@[simp] theorem accept_pcmd (w : Word) (s : State) : (accept w s).pcmd = w := rfl
@[simp] theorem accept_eng (w : Word) (s : State) : (accept w s).eng = s.eng := rfl
@[simp] theorem accept_inReset (w : Word) (s : State) : (accept w s).inReset = s.inReset := rfl
@[simp] theorem accept_turns (w : Word) (s : State) : (accept w s).turns = s.turns := rfl
@[simp] theorem accept_replies (w : Word) (s : State) : (accept w s).replies = s.replies := rfl

/-! ### finish -/

@[simp] theorem finish_cfg (e : Option CmdError) (s : State) : (finish e s).cfg = s.cfg := rfl
@[simp] theorem finish_irqEn (e : Option CmdError) (s : State) : (finish e s).irqEn = s.irqEn := rfl
@[simp] theorem finish_busy (e : Option CmdError) (s : State) : (finish e s).busy = false := rfl
@[simp] theorem finish_done (e : Option CmdError) (s : State) : (finish e s).done = true := rfl
@[simp] theorem finish_werr (e : Option CmdError) (s : State) : (finish e s).werr = s.werr := rfl
@[simp] theorem finish_errcode (e : Option CmdError) (s : State) : (finish e s).errcode = e := rfl
@[simp] theorem finish_keylen (e : Option CmdError) (s : State) : (finish e s).keylen = s.keylen := rfl
@[simp] theorem finish_mlen (e : Option CmdError) (s : State) : (finish e s).mlen = s.mlen := rfl
@[simp] theorem finish_harg (e : Option CmdError) (s : State) : (finish e s).harg = s.harg := rfl
@[simp] theorem finish_rhandle (e : Option CmdError) (s : State) : (finish e s).rhandle = s.rhandle := rfl
@[simp] theorem finish_rlen (e : Option CmdError) (s : State) : (finish e s).rlen = s.rlen := rfl
@[simp] theorem finish_keyb (e : Option CmdError) (s : State) : (finish e s).keyb = s.keyb := rfl
@[simp] theorem finish_din (e : Option CmdError) (s : State) : (finish e s).din = s.din := rfl
@[simp] theorem finish_dout (e : Option CmdError) (s : State) : (finish e s).dout = s.dout := rfl
@[simp] theorem finish_ibuf (e : Option CmdError) (s : State) : (finish e s).ibuf = s.ibuf := rfl
@[simp] theorem finish_slots (e : Option CmdError) (s : State) : (finish e s).slots = s.slots := rfl
@[simp] theorem finish_selv (e : Option CmdError) (s : State) : (finish e s).selv = s.selv := rfl
@[simp] theorem finish_selh (e : Option CmdError) (s : State) : (finish e s).selh = s.selh := rfl
@[simp] theorem finish_pcmd (e : Option CmdError) (s : State) : (finish e s).pcmd = s.pcmd := rfl
@[simp] theorem finish_eng (e : Option CmdError) (s : State) : (finish e s).eng = s.eng := rfl
@[simp] theorem finish_inReset (e : Option CmdError) (s : State) : (finish e s).inReset = s.inReset := rfl
@[simp] theorem finish_turns (e : Option CmdError) (s : State) : (finish e s).turns = s.turns := rfl
@[simp] theorem finish_replies (e : Option CmdError) (s : State) : (finish e s).replies = s.replies := rfl

/-! ### consumeKey -/

@[simp] theorem consumeKey_cfg (s : State) : (consumeKey s).cfg = s.cfg := rfl
@[simp] theorem consumeKey_irqEn (s : State) : (consumeKey s).irqEn = s.irqEn := rfl
@[simp] theorem consumeKey_busy (s : State) : (consumeKey s).busy = s.busy := rfl
@[simp] theorem consumeKey_done (s : State) : (consumeKey s).done = s.done := rfl
@[simp] theorem consumeKey_werr (s : State) : (consumeKey s).werr = s.werr := rfl
@[simp] theorem consumeKey_errcode (s : State) : (consumeKey s).errcode = s.errcode := rfl
@[simp] theorem consumeKey_keylen (s : State) : (consumeKey s).keylen = 0 := rfl
@[simp] theorem consumeKey_mlen (s : State) : (consumeKey s).mlen = s.mlen := rfl
@[simp] theorem consumeKey_harg (s : State) : (consumeKey s).harg = s.harg := rfl
@[simp] theorem consumeKey_rhandle (s : State) : (consumeKey s).rhandle = s.rhandle := rfl
@[simp] theorem consumeKey_rlen (s : State) : (consumeKey s).rlen = s.rlen := rfl
@[simp] theorem consumeKey_keyb (s : State) : (consumeKey s).keyb = [] := rfl
@[simp] theorem consumeKey_din (s : State) : (consumeKey s).din = s.din := rfl
@[simp] theorem consumeKey_dout (s : State) : (consumeKey s).dout = s.dout := rfl
@[simp] theorem consumeKey_ibuf (s : State) : (consumeKey s).ibuf = s.ibuf := rfl
@[simp] theorem consumeKey_slots (s : State) : (consumeKey s).slots = s.slots := rfl
@[simp] theorem consumeKey_selv (s : State) : (consumeKey s).selv = s.selv := rfl
@[simp] theorem consumeKey_selh (s : State) : (consumeKey s).selh = s.selh := rfl
@[simp] theorem consumeKey_pcmd (s : State) : (consumeKey s).pcmd = s.pcmd := rfl
@[simp] theorem consumeKey_eng (s : State) : (consumeKey s).eng = Engine.zero := rfl
@[simp] theorem consumeKey_inReset (s : State) : (consumeKey s).inReset = s.inReset := rfl
@[simp] theorem consumeKey_turns (s : State) : (consumeKey s).turns = s.turns := rfl
@[simp] theorem consumeKey_replies (s : State) : (consumeKey s).replies = s.replies := rfl

/-! ### clearResult -/

@[simp] theorem clearResult_cfg (s : State) : (clearResult s).cfg = s.cfg := rfl
@[simp] theorem clearResult_irqEn (s : State) : (clearResult s).irqEn = s.irqEn := rfl
@[simp] theorem clearResult_busy (s : State) : (clearResult s).busy = s.busy := rfl
@[simp] theorem clearResult_done (s : State) : (clearResult s).done = s.done := rfl
@[simp] theorem clearResult_werr (s : State) : (clearResult s).werr = s.werr := rfl
@[simp] theorem clearResult_errcode (s : State) : (clearResult s).errcode = s.errcode := rfl
@[simp] theorem clearResult_keylen (s : State) : (clearResult s).keylen = s.keylen := rfl
@[simp] theorem clearResult_mlen (s : State) : (clearResult s).mlen = s.mlen := rfl
@[simp] theorem clearResult_harg (s : State) : (clearResult s).harg = s.harg := rfl
@[simp] theorem clearResult_rhandle (s : State) : (clearResult s).rhandle = 0 := rfl
@[simp] theorem clearResult_rlen (s : State) : (clearResult s).rlen = 0 := rfl
@[simp] theorem clearResult_keyb (s : State) : (clearResult s).keyb = s.keyb := rfl
@[simp] theorem clearResult_din (s : State) : (clearResult s).din = s.din := rfl
@[simp] theorem clearResult_dout (s : State) : (clearResult s).dout = s.dout := rfl
@[simp] theorem clearResult_ibuf (s : State) : (clearResult s).ibuf = s.ibuf := rfl
@[simp] theorem clearResult_slots (s : State) : (clearResult s).slots = s.slots := rfl
@[simp] theorem clearResult_selv (s : State) : (clearResult s).selv = s.selv := rfl
@[simp] theorem clearResult_selh (s : State) : (clearResult s).selh = s.selh := rfl
@[simp] theorem clearResult_pcmd (s : State) : (clearResult s).pcmd = s.pcmd := rfl
@[simp] theorem clearResult_eng (s : State) : (clearResult s).eng = s.eng := rfl
@[simp] theorem clearResult_inReset (s : State) : (clearResult s).inReset = s.inReset := rfl
@[simp] theorem clearResult_turns (s : State) : (clearResult s).turns = s.turns := rfl
@[simp] theorem clearResult_replies (s : State) : (clearResult s).replies = s.replies := rfl

/-! ### clearDout -/

@[simp] theorem clearDout_cfg (s : State) : (clearDout s).cfg = s.cfg := rfl
@[simp] theorem clearDout_irqEn (s : State) : (clearDout s).irqEn = s.irqEn := rfl
@[simp] theorem clearDout_busy (s : State) : (clearDout s).busy = s.busy := rfl
@[simp] theorem clearDout_done (s : State) : (clearDout s).done = s.done := rfl
@[simp] theorem clearDout_werr (s : State) : (clearDout s).werr = s.werr := rfl
@[simp] theorem clearDout_errcode (s : State) : (clearDout s).errcode = s.errcode := rfl
@[simp] theorem clearDout_keylen (s : State) : (clearDout s).keylen = s.keylen := rfl
@[simp] theorem clearDout_mlen (s : State) : (clearDout s).mlen = s.mlen := rfl
@[simp] theorem clearDout_harg (s : State) : (clearDout s).harg = s.harg := rfl
@[simp] theorem clearDout_rhandle (s : State) : (clearDout s).rhandle = s.rhandle := rfl
@[simp] theorem clearDout_rlen (s : State) : (clearDout s).rlen = s.rlen := rfl
@[simp] theorem clearDout_keyb (s : State) : (clearDout s).keyb = s.keyb := rfl
@[simp] theorem clearDout_din (s : State) : (clearDout s).din = s.din := rfl
@[simp] theorem clearDout_dout (s : State) : (clearDout s).dout = [] := rfl
@[simp] theorem clearDout_ibuf (s : State) : (clearDout s).ibuf = s.ibuf := rfl
@[simp] theorem clearDout_slots (s : State) : (clearDout s).slots = s.slots := rfl
@[simp] theorem clearDout_selv (s : State) : (clearDout s).selv = s.selv := rfl
@[simp] theorem clearDout_selh (s : State) : (clearDout s).selh = s.selh := rfl
@[simp] theorem clearDout_pcmd (s : State) : (clearDout s).pcmd = s.pcmd := rfl
@[simp] theorem clearDout_eng (s : State) : (clearDout s).eng = s.eng := rfl
@[simp] theorem clearDout_inReset (s : State) : (clearDout s).inReset = s.inReset := rfl
@[simp] theorem clearDout_turns (s : State) : (clearDout s).turns = s.turns := rfl
@[simp] theorem clearDout_replies (s : State) : (clearDout s).replies = s.replies := rfl

/-! ### runEngine -/

@[simp] theorem runEngine_cfg (k : Key) (d : Dir) (xs : List Block) (s : State) : (runEngine k d xs s).cfg = s.cfg := rfl
@[simp] theorem runEngine_irqEn (k : Key) (d : Dir) (xs : List Block) (s : State) : (runEngine k d xs s).irqEn = s.irqEn := rfl
@[simp] theorem runEngine_busy (k : Key) (d : Dir) (xs : List Block) (s : State) : (runEngine k d xs s).busy = s.busy := rfl
@[simp] theorem runEngine_done (k : Key) (d : Dir) (xs : List Block) (s : State) : (runEngine k d xs s).done = s.done := rfl
@[simp] theorem runEngine_werr (k : Key) (d : Dir) (xs : List Block) (s : State) : (runEngine k d xs s).werr = s.werr := rfl
@[simp] theorem runEngine_errcode (k : Key) (d : Dir) (xs : List Block) (s : State) : (runEngine k d xs s).errcode = s.errcode := rfl
@[simp] theorem runEngine_keylen (k : Key) (d : Dir) (xs : List Block) (s : State) : (runEngine k d xs s).keylen = s.keylen := rfl
@[simp] theorem runEngine_mlen (k : Key) (d : Dir) (xs : List Block) (s : State) : (runEngine k d xs s).mlen = s.mlen := rfl
@[simp] theorem runEngine_harg (k : Key) (d : Dir) (xs : List Block) (s : State) : (runEngine k d xs s).harg = s.harg := rfl
@[simp] theorem runEngine_rhandle (k : Key) (d : Dir) (xs : List Block) (s : State) : (runEngine k d xs s).rhandle = s.rhandle := rfl
@[simp] theorem runEngine_rlen (k : Key) (d : Dir) (xs : List Block) (s : State) : (runEngine k d xs s).rlen = s.rlen := rfl
@[simp] theorem runEngine_keyb (k : Key) (d : Dir) (xs : List Block) (s : State) : (runEngine k d xs s).keyb = s.keyb := rfl
@[simp] theorem runEngine_din (k : Key) (d : Dir) (xs : List Block) (s : State) : (runEngine k d xs s).din = s.din := rfl
@[simp] theorem runEngine_dout (k : Key) (d : Dir) (xs : List Block) (s : State) : (runEngine k d xs s).dout = s.dout := rfl
@[simp] theorem runEngine_ibuf (k : Key) (d : Dir) (xs : List Block) (s : State) : (runEngine k d xs s).ibuf = s.ibuf := rfl
@[simp] theorem runEngine_slots (k : Key) (d : Dir) (xs : List Block) (s : State) : (runEngine k d xs s).slots = s.slots := rfl
@[simp] theorem runEngine_selv (k : Key) (d : Dir) (xs : List Block) (s : State) : (runEngine k d xs s).selv = s.selv := rfl
@[simp] theorem runEngine_selh (k : Key) (d : Dir) (xs : List Block) (s : State) : (runEngine k d xs s).selh = s.selh := rfl
@[simp] theorem runEngine_pcmd (k : Key) (d : Dir) (xs : List Block) (s : State) : (runEngine k d xs s).pcmd = s.pcmd := rfl
@[simp] theorem runEngine_eng (k : Key) (d : Dir) (xs : List Block) (s : State) : (runEngine k d xs s).eng = (s.eng.loadSchedule k).runBlocks d xs := rfl
@[simp] theorem runEngine_inReset (k : Key) (d : Dir) (xs : List Block) (s : State) : (runEngine k d xs s).inReset = s.inReset := rfl
@[simp] theorem runEngine_turns (k : Key) (d : Dir) (xs : List Block) (s : State) : (runEngine k d xs s).turns = s.turns := rfl
@[simp] theorem runEngine_replies (k : Key) (d : Dir) (xs : List Block) (s : State) : (runEngine k d xs s).replies = s.replies := rfl

/-! ### alloc -/

@[simp] theorem alloc_cfg (i : Nat) (t : List Byte) (s : State) : (alloc i t s).cfg = s.cfg := rfl
@[simp] theorem alloc_irqEn (i : Nat) (t : List Byte) (s : State) : (alloc i t s).irqEn = s.irqEn := rfl
@[simp] theorem alloc_busy (i : Nat) (t : List Byte) (s : State) : (alloc i t s).busy = s.busy := rfl
@[simp] theorem alloc_done (i : Nat) (t : List Byte) (s : State) : (alloc i t s).done = s.done := rfl
@[simp] theorem alloc_werr (i : Nat) (t : List Byte) (s : State) : (alloc i t s).werr = s.werr := rfl
@[simp] theorem alloc_errcode (i : Nat) (t : List Byte) (s : State) : (alloc i t s).errcode = s.errcode := rfl
@[simp] theorem alloc_keylen (i : Nat) (t : List Byte) (s : State) : (alloc i t s).keylen = s.keylen := rfl
@[simp] theorem alloc_mlen (i : Nat) (t : List Byte) (s : State) : (alloc i t s).mlen = s.mlen := rfl
@[simp] theorem alloc_harg (i : Nat) (t : List Byte) (s : State) : (alloc i t s).harg = s.harg := rfl
@[simp] theorem alloc_rhandle (i : Nat) (t : List Byte) (s : State) : (alloc i t s).rhandle = s.rhandle := rfl
@[simp] theorem alloc_rlen (i : Nat) (t : List Byte) (s : State) : (alloc i t s).rlen = s.rlen := rfl
@[simp] theorem alloc_keyb (i : Nat) (t : List Byte) (s : State) : (alloc i t s).keyb = s.keyb := rfl
@[simp] theorem alloc_din (i : Nat) (t : List Byte) (s : State) : (alloc i t s).din = s.din := rfl
@[simp] theorem alloc_dout (i : Nat) (t : List Byte) (s : State) : (alloc i t s).dout = s.dout := rfl
@[simp] theorem alloc_ibuf (i : Nat) (t : List Byte) (s : State) : (alloc i t s).ibuf = s.ibuf := rfl
@[simp] theorem alloc_slots (i : Nat) (t : List Byte) (s : State) : (alloc i t s).slots = s.slots.modify i (Slot.allocated t) := rfl
@[simp] theorem alloc_selv (i : Nat) (t : List Byte) (s : State) : (alloc i t s).selv = s.selv := rfl
@[simp] theorem alloc_selh (i : Nat) (t : List Byte) (s : State) : (alloc i t s).selh = s.selh := rfl
@[simp] theorem alloc_pcmd (i : Nat) (t : List Byte) (s : State) : (alloc i t s).pcmd = s.pcmd := rfl
@[simp] theorem alloc_eng (i : Nat) (t : List Byte) (s : State) : (alloc i t s).eng = s.eng := rfl
@[simp] theorem alloc_inReset (i : Nat) (t : List Byte) (s : State) : (alloc i t s).inReset = s.inReset := rfl
@[simp] theorem alloc_turns (i : Nat) (t : List Byte) (s : State) : (alloc i t s).turns = s.turns := rfl
@[simp] theorem alloc_replies (i : Nat) (t : List Byte) (s : State) : (alloc i t s).replies = s.replies := rfl

/-! ### storeResult -/

@[simp] theorem storeResult_cfg (i : Nat) (t : List Byte) (s : State) : (storeResult i t s).cfg = s.cfg := rfl
@[simp] theorem storeResult_irqEn (i : Nat) (t : List Byte) (s : State) : (storeResult i t s).irqEn = s.irqEn := rfl
@[simp] theorem storeResult_busy (i : Nat) (t : List Byte) (s : State) : (storeResult i t s).busy = s.busy := rfl
@[simp] theorem storeResult_done (i : Nat) (t : List Byte) (s : State) : (storeResult i t s).done = s.done := rfl
@[simp] theorem storeResult_werr (i : Nat) (t : List Byte) (s : State) : (storeResult i t s).werr = s.werr := rfl
@[simp] theorem storeResult_errcode (i : Nat) (t : List Byte) (s : State) : (storeResult i t s).errcode = s.errcode := rfl
@[simp] theorem storeResult_keylen (i : Nat) (t : List Byte) (s : State) : (storeResult i t s).keylen = s.keylen := rfl
@[simp] theorem storeResult_mlen (i : Nat) (t : List Byte) (s : State) : (storeResult i t s).mlen = s.mlen := rfl
@[simp] theorem storeResult_harg (i : Nat) (t : List Byte) (s : State) : (storeResult i t s).harg = s.harg := rfl
@[simp] theorem storeResult_rhandle (i : Nat) (t : List Byte) (s : State) : (storeResult i t s).rhandle = allocHandle i s := rfl
@[simp] theorem storeResult_rlen (i : Nat) (t : List Byte) (s : State) : (storeResult i t s).rlen = BitVec.ofNat 16 t.length := rfl
@[simp] theorem storeResult_keyb (i : Nat) (t : List Byte) (s : State) : (storeResult i t s).keyb = s.keyb := rfl
@[simp] theorem storeResult_din (i : Nat) (t : List Byte) (s : State) : (storeResult i t s).din = s.din := rfl
@[simp] theorem storeResult_dout (i : Nat) (t : List Byte) (s : State) : (storeResult i t s).dout = s.dout := rfl
@[simp] theorem storeResult_ibuf (i : Nat) (t : List Byte) (s : State) : (storeResult i t s).ibuf = s.ibuf := rfl
@[simp] theorem storeResult_slots (i : Nat) (t : List Byte) (s : State) : (storeResult i t s).slots = s.slots.modify i (Slot.allocated t) := rfl
@[simp] theorem storeResult_selv (i : Nat) (t : List Byte) (s : State) : (storeResult i t s).selv = s.selv := rfl
@[simp] theorem storeResult_selh (i : Nat) (t : List Byte) (s : State) : (storeResult i t s).selh = s.selh := rfl
@[simp] theorem storeResult_pcmd (i : Nat) (t : List Byte) (s : State) : (storeResult i t s).pcmd = s.pcmd := rfl
@[simp] theorem storeResult_eng (i : Nat) (t : List Byte) (s : State) : (storeResult i t s).eng = s.eng := rfl
@[simp] theorem storeResult_inReset (i : Nat) (t : List Byte) (s : State) : (storeResult i t s).inReset = s.inReset := rfl
@[simp] theorem storeResult_turns (i : Nat) (t : List Byte) (s : State) : (storeResult i t s).turns = s.turns := rfl
@[simp] theorem storeResult_replies (i : Nat) (t : List Byte) (s : State) : (storeResult i t s).replies = s.replies := rfl

/-! ### releaseSlot -/

@[simp] theorem releaseSlot_cfg (i : Nat) (s : State) : (releaseSlot i s).cfg = s.cfg := rfl
@[simp] theorem releaseSlot_irqEn (i : Nat) (s : State) : (releaseSlot i s).irqEn = s.irqEn := rfl
@[simp] theorem releaseSlot_busy (i : Nat) (s : State) : (releaseSlot i s).busy = s.busy := rfl
@[simp] theorem releaseSlot_done (i : Nat) (s : State) : (releaseSlot i s).done = s.done := rfl
@[simp] theorem releaseSlot_werr (i : Nat) (s : State) : (releaseSlot i s).werr = s.werr := rfl
@[simp] theorem releaseSlot_errcode (i : Nat) (s : State) : (releaseSlot i s).errcode = s.errcode := rfl
@[simp] theorem releaseSlot_keylen (i : Nat) (s : State) : (releaseSlot i s).keylen = s.keylen := rfl
@[simp] theorem releaseSlot_mlen (i : Nat) (s : State) : (releaseSlot i s).mlen = s.mlen := rfl
@[simp] theorem releaseSlot_harg (i : Nat) (s : State) : (releaseSlot i s).harg = s.harg := rfl
@[simp] theorem releaseSlot_rhandle (i : Nat) (s : State) : (releaseSlot i s).rhandle = s.rhandle := rfl
@[simp] theorem releaseSlot_rlen (i : Nat) (s : State) : (releaseSlot i s).rlen = s.rlen := rfl
@[simp] theorem releaseSlot_keyb (i : Nat) (s : State) : (releaseSlot i s).keyb = s.keyb := rfl
@[simp] theorem releaseSlot_din (i : Nat) (s : State) : (releaseSlot i s).din = s.din := rfl
@[simp] theorem releaseSlot_dout (i : Nat) (s : State) : (releaseSlot i s).dout = s.dout := rfl
@[simp] theorem releaseSlot_ibuf (i : Nat) (s : State) : (releaseSlot i s).ibuf = s.ibuf := rfl
@[simp] theorem releaseSlot_slots (i : Nat) (s : State) : (releaseSlot i s).slots = s.slots.modify i Slot.released := rfl
@[simp] theorem releaseSlot_selv (i : Nat) (s : State) : (releaseSlot i s).selv = s.selv := rfl
@[simp] theorem releaseSlot_selh (i : Nat) (s : State) : (releaseSlot i s).selh = s.selh := rfl
@[simp] theorem releaseSlot_pcmd (i : Nat) (s : State) : (releaseSlot i s).pcmd = s.pcmd := rfl
@[simp] theorem releaseSlot_eng (i : Nat) (s : State) : (releaseSlot i s).eng = s.eng := rfl
@[simp] theorem releaseSlot_inReset (i : Nat) (s : State) : (releaseSlot i s).inReset = s.inReset := rfl
@[simp] theorem releaseSlot_turns (i : Nat) (s : State) : (releaseSlot i s).turns = s.turns := rfl
@[simp] theorem releaseSlot_replies (i : Nat) (s : State) : (releaseSlot i s).replies = s.replies := rfl

/-! ### deselect -/

@[simp] theorem deselect_cfg (h : Word) (s : State) : (deselect h s).cfg = s.cfg := rfl
@[simp] theorem deselect_irqEn (h : Word) (s : State) : (deselect h s).irqEn = s.irqEn := rfl
@[simp] theorem deselect_busy (h : Word) (s : State) : (deselect h s).busy = s.busy := rfl
@[simp] theorem deselect_done (h : Word) (s : State) : (deselect h s).done = s.done := rfl
@[simp] theorem deselect_werr (h : Word) (s : State) : (deselect h s).werr = s.werr := rfl
@[simp] theorem deselect_errcode (h : Word) (s : State) : (deselect h s).errcode = s.errcode := rfl
@[simp] theorem deselect_keylen (h : Word) (s : State) : (deselect h s).keylen = s.keylen := rfl
@[simp] theorem deselect_mlen (h : Word) (s : State) : (deselect h s).mlen = s.mlen := rfl
@[simp] theorem deselect_harg (h : Word) (s : State) : (deselect h s).harg = s.harg := rfl
@[simp] theorem deselect_rhandle (h : Word) (s : State) : (deselect h s).rhandle = s.rhandle := rfl
@[simp] theorem deselect_rlen (h : Word) (s : State) : (deselect h s).rlen = s.rlen := rfl
@[simp] theorem deselect_keyb (h : Word) (s : State) : (deselect h s).keyb = s.keyb := rfl
@[simp] theorem deselect_din (h : Word) (s : State) : (deselect h s).din = s.din := rfl
@[simp] theorem deselect_dout (h : Word) (s : State) : (deselect h s).dout = s.dout := rfl
@[simp] theorem deselect_ibuf (h : Word) (s : State) : (deselect h s).ibuf = s.ibuf := rfl
@[simp] theorem deselect_slots (h : Word) (s : State) : (deselect h s).slots = s.slots := rfl
@[simp] theorem deselect_selv (h : Word) (s : State) : (deselect h s).selv = (s.selv && decide (s.selh ≠ h)) := rfl
@[simp] theorem deselect_selh (h : Word) (s : State) : (deselect h s).selh = s.selh := rfl
@[simp] theorem deselect_pcmd (h : Word) (s : State) : (deselect h s).pcmd = s.pcmd := rfl
@[simp] theorem deselect_eng (h : Word) (s : State) : (deselect h s).eng = s.eng := rfl
@[simp] theorem deselect_inReset (h : Word) (s : State) : (deselect h s).inReset = s.inReset := rfl
@[simp] theorem deselect_turns (h : Word) (s : State) : (deselect h s).turns = s.turns := rfl
@[simp] theorem deselect_replies (h : Word) (s : State) : (deselect h s).replies = s.replies := rfl

/-! ### writeCtrl -/

@[simp] theorem writeCtrl_cfg (w : Word) (s : State) : (writeCtrl w s).cfg = s.cfg := rfl
@[simp] theorem writeCtrl_irqEn (w : Word) (s : State) : (writeCtrl w s).irqEn = w.getLsbD 0 := rfl
@[simp] theorem writeCtrl_busy (w : Word) (s : State) : (writeCtrl w s).busy = s.busy := rfl
@[simp] theorem writeCtrl_done (w : Word) (s : State) : (writeCtrl w s).done = s.done := rfl
@[simp] theorem writeCtrl_werr (w : Word) (s : State) : (writeCtrl w s).werr = s.werr := rfl
@[simp] theorem writeCtrl_errcode (w : Word) (s : State) : (writeCtrl w s).errcode = s.errcode := rfl
@[simp] theorem writeCtrl_keylen (w : Word) (s : State) : (writeCtrl w s).keylen = s.keylen := rfl
@[simp] theorem writeCtrl_mlen (w : Word) (s : State) : (writeCtrl w s).mlen = s.mlen := rfl
@[simp] theorem writeCtrl_harg (w : Word) (s : State) : (writeCtrl w s).harg = s.harg := rfl
@[simp] theorem writeCtrl_rhandle (w : Word) (s : State) : (writeCtrl w s).rhandle = s.rhandle := rfl
@[simp] theorem writeCtrl_rlen (w : Word) (s : State) : (writeCtrl w s).rlen = s.rlen := rfl
@[simp] theorem writeCtrl_keyb (w : Word) (s : State) : (writeCtrl w s).keyb = s.keyb := rfl
@[simp] theorem writeCtrl_din (w : Word) (s : State) : (writeCtrl w s).din = s.din := rfl
@[simp] theorem writeCtrl_dout (w : Word) (s : State) : (writeCtrl w s).dout = s.dout := rfl
@[simp] theorem writeCtrl_ibuf (w : Word) (s : State) : (writeCtrl w s).ibuf = s.ibuf := rfl
@[simp] theorem writeCtrl_slots (w : Word) (s : State) : (writeCtrl w s).slots = s.slots := rfl
@[simp] theorem writeCtrl_selv (w : Word) (s : State) : (writeCtrl w s).selv = s.selv := rfl
@[simp] theorem writeCtrl_selh (w : Word) (s : State) : (writeCtrl w s).selh = s.selh := rfl
@[simp] theorem writeCtrl_pcmd (w : Word) (s : State) : (writeCtrl w s).pcmd = s.pcmd := rfl
@[simp] theorem writeCtrl_eng (w : Word) (s : State) : (writeCtrl w s).eng = s.eng := rfl
@[simp] theorem writeCtrl_inReset (w : Word) (s : State) : (writeCtrl w s).inReset = s.inReset := rfl
@[simp] theorem writeCtrl_turns (w : Word) (s : State) : (writeCtrl w s).turns = s.turns := rfl
@[simp] theorem writeCtrl_replies (w : Word) (s : State) : (writeCtrl w s).replies = s.replies := rfl

/-! ### writeStatus -/

@[simp] theorem writeStatus_cfg (w : Word) (s : State) : (writeStatus w s).cfg = s.cfg := rfl
@[simp] theorem writeStatus_irqEn (w : Word) (s : State) : (writeStatus w s).irqEn = s.irqEn := rfl
@[simp] theorem writeStatus_busy (w : Word) (s : State) : (writeStatus w s).busy = s.busy := rfl
@[simp] theorem writeStatus_done (w : Word) (s : State) : (writeStatus w s).done = (s.done && !w.getLsbD 1) := rfl
@[simp] theorem writeStatus_werr (w : Word) (s : State) : (writeStatus w s).werr = (s.werr && !w.getLsbD 2) := rfl
@[simp] theorem writeStatus_errcode (w : Word) (s : State) : (writeStatus w s).errcode = s.errcode := rfl
@[simp] theorem writeStatus_keylen (w : Word) (s : State) : (writeStatus w s).keylen = s.keylen := rfl
@[simp] theorem writeStatus_mlen (w : Word) (s : State) : (writeStatus w s).mlen = s.mlen := rfl
@[simp] theorem writeStatus_harg (w : Word) (s : State) : (writeStatus w s).harg = s.harg := rfl
@[simp] theorem writeStatus_rhandle (w : Word) (s : State) : (writeStatus w s).rhandle = s.rhandle := rfl
@[simp] theorem writeStatus_rlen (w : Word) (s : State) : (writeStatus w s).rlen = s.rlen := rfl
@[simp] theorem writeStatus_keyb (w : Word) (s : State) : (writeStatus w s).keyb = s.keyb := rfl
@[simp] theorem writeStatus_din (w : Word) (s : State) : (writeStatus w s).din = s.din := rfl
@[simp] theorem writeStatus_dout (w : Word) (s : State) : (writeStatus w s).dout = s.dout := rfl
@[simp] theorem writeStatus_ibuf (w : Word) (s : State) : (writeStatus w s).ibuf = s.ibuf := rfl
@[simp] theorem writeStatus_slots (w : Word) (s : State) : (writeStatus w s).slots = s.slots := rfl
@[simp] theorem writeStatus_selv (w : Word) (s : State) : (writeStatus w s).selv = s.selv := rfl
@[simp] theorem writeStatus_selh (w : Word) (s : State) : (writeStatus w s).selh = s.selh := rfl
@[simp] theorem writeStatus_pcmd (w : Word) (s : State) : (writeStatus w s).pcmd = s.pcmd := rfl
@[simp] theorem writeStatus_eng (w : Word) (s : State) : (writeStatus w s).eng = s.eng := rfl
@[simp] theorem writeStatus_inReset (w : Word) (s : State) : (writeStatus w s).inReset = s.inReset := rfl
@[simp] theorem writeStatus_turns (w : Word) (s : State) : (writeStatus w s).turns = s.turns := rfl
@[simp] theorem writeStatus_replies (w : Word) (s : State) : (writeStatus w s).replies = s.replies := rfl

/-! ### dropWrite -/

@[simp] theorem dropWrite_cfg (s : State) : (dropWrite s).cfg = s.cfg := rfl
@[simp] theorem dropWrite_irqEn (s : State) : (dropWrite s).irqEn = s.irqEn := rfl
@[simp] theorem dropWrite_busy (s : State) : (dropWrite s).busy = s.busy := rfl
@[simp] theorem dropWrite_done (s : State) : (dropWrite s).done = s.done := rfl
@[simp] theorem dropWrite_werr (s : State) : (dropWrite s).werr = true := rfl
@[simp] theorem dropWrite_errcode (s : State) : (dropWrite s).errcode = s.errcode := rfl
@[simp] theorem dropWrite_keylen (s : State) : (dropWrite s).keylen = s.keylen := rfl
@[simp] theorem dropWrite_mlen (s : State) : (dropWrite s).mlen = s.mlen := rfl
@[simp] theorem dropWrite_harg (s : State) : (dropWrite s).harg = s.harg := rfl
@[simp] theorem dropWrite_rhandle (s : State) : (dropWrite s).rhandle = s.rhandle := rfl
@[simp] theorem dropWrite_rlen (s : State) : (dropWrite s).rlen = s.rlen := rfl
@[simp] theorem dropWrite_keyb (s : State) : (dropWrite s).keyb = s.keyb := rfl
@[simp] theorem dropWrite_din (s : State) : (dropWrite s).din = s.din := rfl
@[simp] theorem dropWrite_dout (s : State) : (dropWrite s).dout = s.dout := rfl
@[simp] theorem dropWrite_ibuf (s : State) : (dropWrite s).ibuf = s.ibuf := rfl
@[simp] theorem dropWrite_slots (s : State) : (dropWrite s).slots = s.slots := rfl
@[simp] theorem dropWrite_selv (s : State) : (dropWrite s).selv = s.selv := rfl
@[simp] theorem dropWrite_selh (s : State) : (dropWrite s).selh = s.selh := rfl
@[simp] theorem dropWrite_pcmd (s : State) : (dropWrite s).pcmd = s.pcmd := rfl
@[simp] theorem dropWrite_eng (s : State) : (dropWrite s).eng = s.eng := rfl
@[simp] theorem dropWrite_inReset (s : State) : (dropWrite s).inReset = s.inReset := rfl
@[simp] theorem dropWrite_turns (s : State) : (dropWrite s).turns = s.turns := rfl
@[simp] theorem dropWrite_replies (s : State) : (dropWrite s).replies = s.replies := rfl

/-! ### State.pop -/

@[simp] theorem State.pop_cfg (s : State) : (State.pop s).cfg = s.cfg := rfl
@[simp] theorem State.pop_irqEn (s : State) : (State.pop s).irqEn = s.irqEn := rfl
@[simp] theorem State.pop_busy (s : State) : (State.pop s).busy = s.busy := rfl
@[simp] theorem State.pop_done (s : State) : (State.pop s).done = s.done := rfl
@[simp] theorem State.pop_werr (s : State) : (State.pop s).werr = s.werr := rfl
@[simp] theorem State.pop_errcode (s : State) : (State.pop s).errcode = s.errcode := rfl
@[simp] theorem State.pop_keylen (s : State) : (State.pop s).keylen = s.keylen := rfl
@[simp] theorem State.pop_mlen (s : State) : (State.pop s).mlen = s.mlen := rfl
@[simp] theorem State.pop_harg (s : State) : (State.pop s).harg = s.harg := rfl
@[simp] theorem State.pop_rhandle (s : State) : (State.pop s).rhandle = s.rhandle := rfl
@[simp] theorem State.pop_rlen (s : State) : (State.pop s).rlen = s.rlen := rfl
@[simp] theorem State.pop_keyb (s : State) : (State.pop s).keyb = s.keyb := rfl
@[simp] theorem State.pop_din (s : State) : (State.pop s).din = s.din := rfl
@[simp] theorem State.pop_dout (s : State) : (State.pop s).dout = s.dout := rfl
@[simp] theorem State.pop_ibuf (s : State) : (State.pop s).ibuf = s.ibuf := rfl
@[simp] theorem State.pop_slots (s : State) : (State.pop s).slots = s.slots := rfl
@[simp] theorem State.pop_selv (s : State) : (State.pop s).selv = s.selv := rfl
@[simp] theorem State.pop_selh (s : State) : (State.pop s).selh = s.selh := rfl
@[simp] theorem State.pop_pcmd (s : State) : (State.pop s).pcmd = s.pcmd := rfl
@[simp] theorem State.pop_eng (s : State) : (State.pop s).eng = s.eng := rfl
@[simp] theorem State.pop_inReset (s : State) : (State.pop s).inReset = s.inReset := rfl
@[simp] theorem State.pop_turns (s : State) : (State.pop s).turns = s.turns.tail := rfl
@[simp] theorem State.pop_replies (s : State) : (State.pop s).replies = s.replies := rfl

/-! ### keyedEnd -/

@[simp] theorem keyedEnd_cfg (e : Option CmdError) (s : State) : (keyedEnd e s).cfg = s.cfg := rfl
@[simp] theorem keyedEnd_irqEn (e : Option CmdError) (s : State) : (keyedEnd e s).irqEn = s.irqEn := rfl
@[simp] theorem keyedEnd_busy (e : Option CmdError) (s : State) : (keyedEnd e s).busy = false := rfl
@[simp] theorem keyedEnd_done (e : Option CmdError) (s : State) : (keyedEnd e s).done = true := rfl
@[simp] theorem keyedEnd_werr (e : Option CmdError) (s : State) : (keyedEnd e s).werr = s.werr := rfl
@[simp] theorem keyedEnd_errcode (e : Option CmdError) (s : State) : (keyedEnd e s).errcode = e := rfl
@[simp] theorem keyedEnd_keylen (e : Option CmdError) (s : State) : (keyedEnd e s).keylen = 0 := rfl
@[simp] theorem keyedEnd_mlen (e : Option CmdError) (s : State) : (keyedEnd e s).mlen = s.mlen := rfl
@[simp] theorem keyedEnd_harg (e : Option CmdError) (s : State) : (keyedEnd e s).harg = s.harg := rfl
@[simp] theorem keyedEnd_rhandle (e : Option CmdError) (s : State) : (keyedEnd e s).rhandle = s.rhandle := rfl
@[simp] theorem keyedEnd_rlen (e : Option CmdError) (s : State) : (keyedEnd e s).rlen = s.rlen := rfl
@[simp] theorem keyedEnd_keyb (e : Option CmdError) (s : State) : (keyedEnd e s).keyb = [] := rfl
@[simp] theorem keyedEnd_din (e : Option CmdError) (s : State) : (keyedEnd e s).din = s.din := rfl
@[simp] theorem keyedEnd_dout (e : Option CmdError) (s : State) : (keyedEnd e s).dout = s.dout := rfl
@[simp] theorem keyedEnd_ibuf (e : Option CmdError) (s : State) : (keyedEnd e s).ibuf = s.ibuf := rfl
@[simp] theorem keyedEnd_slots (e : Option CmdError) (s : State) : (keyedEnd e s).slots = s.slots := rfl
@[simp] theorem keyedEnd_selv (e : Option CmdError) (s : State) : (keyedEnd e s).selv = s.selv := rfl
@[simp] theorem keyedEnd_selh (e : Option CmdError) (s : State) : (keyedEnd e s).selh = s.selh := rfl
@[simp] theorem keyedEnd_pcmd (e : Option CmdError) (s : State) : (keyedEnd e s).pcmd = s.pcmd := rfl
@[simp] theorem keyedEnd_eng (e : Option CmdError) (s : State) : (keyedEnd e s).eng = Engine.zero := rfl
@[simp] theorem keyedEnd_inReset (e : Option CmdError) (s : State) : (keyedEnd e s).inReset = s.inReset := rfl
@[simp] theorem keyedEnd_turns (e : Option CmdError) (s : State) : (keyedEnd e s).turns = s.turns := rfl
@[simp] theorem keyedEnd_replies (e : Option CmdError) (s : State) : (keyedEnd e s).replies = s.replies := rfl

/-! ### clearBlock -/

@[simp] theorem clearBlock_cfg (s : State) : (clearBlock s).cfg = s.cfg := rfl
@[simp] theorem clearBlock_irqEn (s : State) : (clearBlock s).irqEn = s.irqEn := rfl
@[simp] theorem clearBlock_busy (s : State) : (clearBlock s).busy = false := rfl
@[simp] theorem clearBlock_done (s : State) : (clearBlock s).done = false := rfl
@[simp] theorem clearBlock_werr (s : State) : (clearBlock s).werr = false := rfl
@[simp] theorem clearBlock_errcode (s : State) : (clearBlock s).errcode = none := rfl
@[simp] theorem clearBlock_keylen (s : State) : (clearBlock s).keylen = 0 := rfl
@[simp] theorem clearBlock_mlen (s : State) : (clearBlock s).mlen = 0 := rfl
@[simp] theorem clearBlock_harg (s : State) : (clearBlock s).harg = 0 := rfl
@[simp] theorem clearBlock_rhandle (s : State) : (clearBlock s).rhandle = 0 := rfl
@[simp] theorem clearBlock_rlen (s : State) : (clearBlock s).rlen = 0 := rfl
@[simp] theorem clearBlock_keyb (s : State) : (clearBlock s).keyb = [] := rfl
@[simp] theorem clearBlock_din (s : State) : (clearBlock s).din = [] := rfl
@[simp] theorem clearBlock_dout (s : State) : (clearBlock s).dout = [] := rfl
@[simp] theorem clearBlock_ibuf (s : State) : (clearBlock s).ibuf = [] := rfl
@[simp] theorem clearBlock_slots (s : State) : (clearBlock s).slots = (s.slots.map fun sl => { Slot.initial with gen := sl.gen }) := rfl
@[simp] theorem clearBlock_selv (s : State) : (clearBlock s).selv = false := rfl
@[simp] theorem clearBlock_selh (s : State) : (clearBlock s).selh = 0 := rfl
@[simp] theorem clearBlock_pcmd (s : State) : (clearBlock s).pcmd = 0 := rfl
@[simp] theorem clearBlock_eng (s : State) : (clearBlock s).eng = Engine.zero := rfl
@[simp] theorem clearBlock_inReset (s : State) : (clearBlock s).inReset = s.inReset := rfl
@[simp] theorem clearBlock_turns (s : State) : (clearBlock s).turns = s.turns := rfl
@[simp] theorem clearBlock_replies (s : State) : (clearBlock s).replies = s.replies := rfl

/-! ### resetBlock -/

@[simp] theorem resetBlock_cfg (s : State) : (resetBlock s).cfg = s.cfg := rfl
@[simp] theorem resetBlock_irqEn (s : State) : (resetBlock s).irqEn = false := rfl
@[simp] theorem resetBlock_busy (s : State) : (resetBlock s).busy = false := rfl
@[simp] theorem resetBlock_done (s : State) : (resetBlock s).done = false := rfl
@[simp] theorem resetBlock_werr (s : State) : (resetBlock s).werr = false := rfl
@[simp] theorem resetBlock_errcode (s : State) : (resetBlock s).errcode = none := rfl
@[simp] theorem resetBlock_keylen (s : State) : (resetBlock s).keylen = 0 := rfl
@[simp] theorem resetBlock_mlen (s : State) : (resetBlock s).mlen = 0 := rfl
@[simp] theorem resetBlock_harg (s : State) : (resetBlock s).harg = 0 := rfl
@[simp] theorem resetBlock_rhandle (s : State) : (resetBlock s).rhandle = 0 := rfl
@[simp] theorem resetBlock_rlen (s : State) : (resetBlock s).rlen = 0 := rfl
@[simp] theorem resetBlock_keyb (s : State) : (resetBlock s).keyb = [] := rfl
@[simp] theorem resetBlock_din (s : State) : (resetBlock s).din = [] := rfl
@[simp] theorem resetBlock_dout (s : State) : (resetBlock s).dout = [] := rfl
@[simp] theorem resetBlock_ibuf (s : State) : (resetBlock s).ibuf = [] := rfl
@[simp] theorem resetBlock_slots (s : State) : (resetBlock s).slots = List.replicate s.cfg.numSlots Slot.initial := rfl
@[simp] theorem resetBlock_selv (s : State) : (resetBlock s).selv = false := rfl
@[simp] theorem resetBlock_selh (s : State) : (resetBlock s).selh = 0 := rfl
@[simp] theorem resetBlock_pcmd (s : State) : (resetBlock s).pcmd = 0 := rfl
@[simp] theorem resetBlock_eng (s : State) : (resetBlock s).eng = Engine.zero := rfl
@[simp] theorem resetBlock_inReset (s : State) : (resetBlock s).inReset = s.inReset := rfl
@[simp] theorem resetBlock_turns (s : State) : (resetBlock s).turns = s.turns := rfl
@[simp] theorem resetBlock_replies (s : State) : (resetBlock s).replies = s.replies := rfl

/-! ### loadCommand -/

@[simp] theorem loadCommand_cfg (w : Word) (s : State) : (loadCommand w s).cfg = s.cfg := rfl
@[simp] theorem loadCommand_irqEn (w : Word) (s : State) : (loadCommand w s).irqEn = s.irqEn := rfl
@[simp] theorem loadCommand_busy (w : Word) (s : State) : (loadCommand w s).busy = true := rfl
@[simp] theorem loadCommand_done (w : Word) (s : State) : (loadCommand w s).done = false := rfl
@[simp] theorem loadCommand_werr (w : Word) (s : State) : (loadCommand w s).werr = s.werr := rfl
@[simp] theorem loadCommand_errcode (w : Word) (s : State) : (loadCommand w s).errcode = none := rfl
@[simp] theorem loadCommand_keylen (w : Word) (s : State) : (loadCommand w s).keylen = s.keylen := rfl
@[simp] theorem loadCommand_mlen (w : Word) (s : State) : (loadCommand w s).mlen = s.mlen := rfl
@[simp] theorem loadCommand_harg (w : Word) (s : State) : (loadCommand w s).harg = s.harg := rfl
@[simp] theorem loadCommand_rhandle (w : Word) (s : State) : (loadCommand w s).rhandle = s.rhandle := rfl
@[simp] theorem loadCommand_rlen (w : Word) (s : State) : (loadCommand w s).rlen = s.rlen := rfl
@[simp] theorem loadCommand_keyb (w : Word) (s : State) : (loadCommand w s).keyb = s.keyb := rfl
@[simp] theorem loadCommand_din (w : Word) (s : State) : (loadCommand w s).din = s.din := rfl
@[simp] theorem loadCommand_dout (w : Word) (s : State) : (loadCommand w s).dout = s.dout := rfl
@[simp] theorem loadCommand_ibuf (w : Word) (s : State) : (loadCommand w s).ibuf = s.ibuf := rfl
@[simp] theorem loadCommand_slots (w : Word) (s : State) : (loadCommand w s).slots = s.slots := rfl
@[simp] theorem loadCommand_selv (w : Word) (s : State) : (loadCommand w s).selv = s.selv := rfl
@[simp] theorem loadCommand_selh (w : Word) (s : State) : (loadCommand w s).selh = s.selh := rfl
@[simp] theorem loadCommand_pcmd (w : Word) (s : State) : (loadCommand w s).pcmd = w := rfl
@[simp] theorem loadCommand_eng (w : Word) (s : State) : (loadCommand w s).eng = s.eng := rfl
@[simp] theorem loadCommand_inReset (w : Word) (s : State) : (loadCommand w s).inReset = false := rfl
@[simp] theorem loadCommand_turns (w : Word) (s : State) : (loadCommand w s).turns = .core :: s.turns := rfl
@[simp] theorem loadCommand_replies (w : Word) (s : State) : (loadCommand w s).replies = s.replies := rfl

/-! ### memWrite -/

@[simp] theorem memWrite_cfg (sp : Space) (a : Nat) (bs : List Byte) (s : State) :
    (memWrite sp a bs s).cfg = s.cfg := by cases sp <;> rfl
@[simp] theorem memWrite_irqEn (sp : Space) (a : Nat) (bs : List Byte) (s : State) :
    (memWrite sp a bs s).irqEn = s.irqEn := by cases sp <;> rfl
@[simp] theorem memWrite_busy (sp : Space) (a : Nat) (bs : List Byte) (s : State) :
    (memWrite sp a bs s).busy = s.busy := by cases sp <;> rfl
@[simp] theorem memWrite_done (sp : Space) (a : Nat) (bs : List Byte) (s : State) :
    (memWrite sp a bs s).done = s.done := by cases sp <;> rfl
@[simp] theorem memWrite_werr (sp : Space) (a : Nat) (bs : List Byte) (s : State) :
    (memWrite sp a bs s).werr = s.werr := by cases sp <;> rfl
@[simp] theorem memWrite_errcode (sp : Space) (a : Nat) (bs : List Byte) (s : State) :
    (memWrite sp a bs s).errcode = s.errcode := by cases sp <;> rfl
@[simp] theorem memWrite_keylen (sp : Space) (a : Nat) (bs : List Byte) (s : State) :
    (memWrite sp a bs s).keylen = s.keylen := by cases sp <;> rfl
@[simp] theorem memWrite_mlen (sp : Space) (a : Nat) (bs : List Byte) (s : State) :
    (memWrite sp a bs s).mlen = s.mlen := by cases sp <;> rfl
@[simp] theorem memWrite_harg (sp : Space) (a : Nat) (bs : List Byte) (s : State) :
    (memWrite sp a bs s).harg = s.harg := by cases sp <;> rfl
@[simp] theorem memWrite_rhandle (sp : Space) (a : Nat) (bs : List Byte) (s : State) :
    (memWrite sp a bs s).rhandle = s.rhandle := by cases sp <;> rfl
@[simp] theorem memWrite_rlen (sp : Space) (a : Nat) (bs : List Byte) (s : State) :
    (memWrite sp a bs s).rlen = s.rlen := by cases sp <;> rfl
@[simp] theorem memWrite_selv (sp : Space) (a : Nat) (bs : List Byte) (s : State) :
    (memWrite sp a bs s).selv = s.selv := by cases sp <;> rfl
@[simp] theorem memWrite_selh (sp : Space) (a : Nat) (bs : List Byte) (s : State) :
    (memWrite sp a bs s).selh = s.selh := by cases sp <;> rfl
@[simp] theorem memWrite_pcmd (sp : Space) (a : Nat) (bs : List Byte) (s : State) :
    (memWrite sp a bs s).pcmd = s.pcmd := by cases sp <;> rfl
@[simp] theorem memWrite_eng (sp : Space) (a : Nat) (bs : List Byte) (s : State) :
    (memWrite sp a bs s).eng = s.eng := by cases sp <;> rfl
@[simp] theorem memWrite_inReset (sp : Space) (a : Nat) (bs : List Byte) (s : State) :
    (memWrite sp a bs s).inReset = s.inReset := by cases sp <;> rfl
@[simp] theorem memWrite_turns (sp : Space) (a : Nat) (bs : List Byte) (s : State) :
    (memWrite sp a bs s).turns = s.turns := by cases sp <;> rfl
@[simp] theorem memWrite_replies (sp : Space) (a : Nat) (bs : List Byte) (s : State) :
    (memWrite sp a bs s).replies = s.replies := by cases sp <;> rfl
@[simp] theorem memWrite_keyb_keyb (a : Nat) (bs : List Byte) (s : State) :
    (memWrite .keyb a bs s).keyb = Memory.writeBytes s.keyb a bs := rfl
@[simp] theorem memWrite_keyb_din (a : Nat) (bs : List Byte) (s : State) :
    (memWrite .keyb a bs s).din = s.din := rfl
@[simp] theorem memWrite_keyb_dout (a : Nat) (bs : List Byte) (s : State) :
    (memWrite .keyb a bs s).dout = s.dout := rfl
@[simp] theorem memWrite_keyb_ibuf (a : Nat) (bs : List Byte) (s : State) :
    (memWrite .keyb a bs s).ibuf = s.ibuf := rfl
@[simp] theorem memWrite_keyb_slots (a : Nat) (bs : List Byte) (s : State) :
    (memWrite .keyb a bs s).slots = s.slots := rfl
@[simp] theorem memWrite_din_keyb (a : Nat) (bs : List Byte) (s : State) :
    (memWrite .din a bs s).keyb = s.keyb := rfl
@[simp] theorem memWrite_din_din (a : Nat) (bs : List Byte) (s : State) :
    (memWrite .din a bs s).din = Memory.writeBytes s.din a bs := rfl
@[simp] theorem memWrite_din_dout (a : Nat) (bs : List Byte) (s : State) :
    (memWrite .din a bs s).dout = s.dout := rfl
@[simp] theorem memWrite_din_ibuf (a : Nat) (bs : List Byte) (s : State) :
    (memWrite .din a bs s).ibuf = s.ibuf := rfl
@[simp] theorem memWrite_din_slots (a : Nat) (bs : List Byte) (s : State) :
    (memWrite .din a bs s).slots = s.slots := rfl
@[simp] theorem memWrite_dout_keyb (a : Nat) (bs : List Byte) (s : State) :
    (memWrite .dout a bs s).keyb = s.keyb := rfl
@[simp] theorem memWrite_dout_din (a : Nat) (bs : List Byte) (s : State) :
    (memWrite .dout a bs s).din = s.din := rfl
@[simp] theorem memWrite_dout_dout (a : Nat) (bs : List Byte) (s : State) :
    (memWrite .dout a bs s).dout = Memory.writeBytes s.dout a bs := rfl
@[simp] theorem memWrite_dout_ibuf (a : Nat) (bs : List Byte) (s : State) :
    (memWrite .dout a bs s).ibuf = s.ibuf := rfl
@[simp] theorem memWrite_dout_slots (a : Nat) (bs : List Byte) (s : State) :
    (memWrite .dout a bs s).slots = s.slots := rfl
@[simp] theorem memWrite_ibuf_keyb (a : Nat) (bs : List Byte) (s : State) :
    (memWrite .ibuf a bs s).keyb = s.keyb := rfl
@[simp] theorem memWrite_ibuf_din (a : Nat) (bs : List Byte) (s : State) :
    (memWrite .ibuf a bs s).din = s.din := rfl
@[simp] theorem memWrite_ibuf_dout (a : Nat) (bs : List Byte) (s : State) :
    (memWrite .ibuf a bs s).dout = s.dout := rfl
@[simp] theorem memWrite_ibuf_ibuf (a : Nat) (bs : List Byte) (s : State) :
    (memWrite .ibuf a bs s).ibuf = Memory.writeBytes s.ibuf a bs := rfl
@[simp] theorem memWrite_ibuf_slots (a : Nat) (bs : List Byte) (s : State) :
    (memWrite .ibuf a bs s).slots = s.slots := rfl

/-! ### Stores -/

@[simp] theorem byteAt_keyb (s : State) (a : Nat) : byteAt s .keyb a = Memory.read s.keyb a := rfl
@[simp] theorem memRead_keyb (s : State) (a n : Nat) : memRead .keyb a n s = Memory.readBytes s.keyb a n := rfl
@[simp] theorem byteAt_din (s : State) (a : Nat) : byteAt s .din a = Memory.read s.din a := rfl
@[simp] theorem memRead_din (s : State) (a n : Nat) : memRead .din a n s = Memory.readBytes s.din a n := rfl
@[simp] theorem byteAt_dout (s : State) (a : Nat) : byteAt s .dout a = Memory.read s.dout a := rfl
@[simp] theorem memRead_dout (s : State) (a n : Nat) : memRead .dout a n s = Memory.readBytes s.dout a n := rfl
@[simp] theorem byteAt_ibuf (s : State) (a : Nat) : byteAt s .ibuf a = Memory.read s.ibuf a := rfl
@[simp] theorem memRead_ibuf (s : State) (a n : Nat) : memRead .ibuf a n s = Memory.readBytes s.ibuf a n := rfl

/-! ### Hidden registers -/

@[simp] theorem Engine.loadSchedule_sk (k : Key) (e : Engine) : (e.loadSchedule k).sk = deriveSchedule k := rfl
@[simp] theorem Engine.runBlock_sk (d : Dir) (e : Engine) (x : Block) : (e.runBlock d x).sk = e.sk := rfl
@[simp] theorem Engine.runBlock_scratch (d : Dir) (e : Engine) (x : Block) :
    (e.runBlock d x).scratch = e.scratch ++ bytes8 (transform x e.sk d) := rfl
@[simp] theorem Engine.runBlock_block (d : Dir) (e : Engine) (x : Block) : (e.runBlock d x).block = e.block + 1 := rfl

end Sys2Proof.Machine
end

