-- ==== Sys2Proof/Laws/Des.lean ====
section
/-! SUPPORT. The small lemmas of the permutations and of the hidden registers. -/

namespace Sys2Proof.Machine

/-- The fold of `permute` on a table whose last entry is split off. -/
theorem permuteFold_snoc {n : Nat} (v : BitVec n) (T : List Nat) (p : Nat) :
    (T ++ [p]).foldl (fun acc q => 2 * acc + (v.getMsbD (q - 1)).toNat) 0
      = 2 * T.foldl (fun acc q => 2 * acc + (v.getMsbD (q - 1)).toNat) 0 + (v.getMsbD (p - 1)).toNat := by
  rw [List.foldl_append]; rfl

/-- Bit `i` from below of the folded number is the input bit of the table's entry `i` from the end. -/
theorem testBit_permuteFold {n : Nat} (v : BitVec n) (T : List Nat) (i : Nat) :
    (T.foldl (fun acc q => 2 * acc + (v.getMsbD (q - 1)).toNat) 0).testBit i
      = (T.reverse[i]?.map fun q => v.getMsbD (q - 1)).getD false := by
  induction T using List.reverseRecOn generalizing i with
  | nil => simp
  | append_singleton T p ih =>
    rw [permuteFold_snoc, List.reverse_append, List.reverse_singleton, List.singleton_append]
    cases i with
    | zero => cases h : v.getMsbD (p - 1) <;> simp [Nat.testBit_zero, h]
    | succ i =>
      rw [Nat.testBit_succ, List.getElem?_cons_succ, ← ih i]
      congr 1
      cases v.getMsbD (p - 1) <;> simp <;> omega

/-- Output position `j` takes input position `T[j]` (00_scope.md R7): bits counted from the most significant, from 0. -/
theorem getMsbD_permute {n : Nat} (m : Nat) (T : List Nat) (v : BitVec n) (hT : T.length = m) {j : Nat} (hj : j < m) :
    (permute m T v).getMsbD j = v.getMsbD (T[j]'(by omega) - 1) := by
  have hi : m - 1 - j < m := by omega
  have hr : T.reverse[m - 1 - j]? = some (T[j]'(by omega)) := by
    rw [List.getElem?_reverse (by omega)]
    have e : T.length - 1 - (m - 1 - j) = j := by omega
    rw [e, List.getElem?_eq_getElem]
  rw [BitVec.getMsbD_eq_getLsbD, permute, BitVec.getLsbD_ofNat, testBit_permuteFold, hr]
  simp [hj, hi]

/-! ### Hidden registers -/

/-- What a run of blocks leaves in the scratch store: the results in ascending order, each block by itself (41_feistel.md
R158). -/
theorem Engine.foldl_runBlock (d : Dir) (xs : List Block) (e : Engine) :
    (xs.foldl (Engine.runBlock d) e).scratch = e.scratch ++ join (xs.map fun x => transform x e.sk d) := by
  induction xs generalizing e with
  | nil => simp [join]
  | cons x xs ih =>
    rw [List.foldl_cons, ih, Engine.runBlock_scratch, Engine.runBlock_sk]
    simp [join]

theorem Engine.runBlocks_scratch (d : Dir) (xs : List Block) (e : Engine) :
    (e.runBlocks d xs).scratch = join (xs.map fun x => transform x e.sk d) := by
  rw [Engine.runBlocks, Engine.foldl_runBlock]; rfl

/-- The registers after the schedule and the blocks of a command (40_key_schedule.md R126, 41_feistel.md R158). -/
theorem runEngine_scratch (k : Key) (d : Dir) (xs : List Block) (s : State) :
    (runEngine k d xs s).eng.scratch = join (xs.map fun x => transform x (deriveSchedule k) d) := by
  rw [runEngine_eng, Engine.runBlocks_scratch, Engine.loadSchedule_sk]

@[simp] theorem length_bytes8 (v : BitVec 64) : (bytes8 v).length = 8 := rfl

@[simp] theorem length_join (ys : List Block) : (join ys).length = 8 * ys.length := by
  induction ys with
  | nil => rfl
  | cons y ys ih => simp only [join, List.flatMap_cons, List.length_append, length_bytes8, List.length_cons] at ih ⊢; omega

@[simp] theorem length_blocksOf (nb : Nat) (t : List Byte) : (blocksOf nb t).length = nb := by
  induction nb generalizing t with
  | zero => rfl
  | succ nb ih => simp [blocksOf, ih]

@[simp] theorem length_blocks (t : List Byte) : (blocks t).length = t.length / 8 := length_blocksOf _ _

@[simp] theorem length_hexEncode (c : List Byte) : (hexEncode c).length = 2 * c.length := by
  induction c with
  | nil => rfl
  | cons b c ih => simp only [hexEncode, List.flatMap_cons, List.length_append, List.length_cons, List.length_nil] at ih ⊢; omega

theorem length_pad (m : List Byte) : (pad m).length = 8 * (m.length / 8 + 1) := by
  simp only [pad, padLen, List.length_append, List.length_replicate]; omega

/-- An unpadded message is shorter than the padded one by 1 to 8 bytes (42_formatter.md R174). -/
theorem length_unpad {t m : List Byte} (h : unpad t = some m) : m.length + 1 ≤ t.length ∧ t.length ≤ m.length + 8 := by
  unfold unpad at h
  split at h
  · cases h
  · rename_i last hl
    split at h
    · rename_i hp
      have hne : t ≠ [] := by rintro rfl; simp at hl
      have : 0 < t.length := List.length_pos_iff.2 hne
      cases h
      simp only [List.length_take]
      omega
    · cases h

end Sys2Proof.Machine
end

