-- ==== Sys2Proof/Laws/Memory.lean ====
section
/-! SUPPORT. The laws of byte stores: a read after a write, canonical form and bounds kept by every operation, and
equality of canonical stores that read alike. -/

namespace Sys2Proof.Machine

@[simp] theorem Memory.read_nil (a : Nat) : Memory.read [] a = Memory.unlisted := rfl

/-- A canonical store that lists nothing below `a` reads 0x00 there. -/
theorem Memory.read_eq_unlisted_of_lt {m : Memory} {a : Nat} (h : ∀ c ∈ m, a < c.1) :
    Memory.read m a = Memory.unlisted := by
  induction m with
  | nil => rfl
  | cons c m ih =>
    obtain ⟨k, v⟩ := c
    have hk : a < k := h (k, v) (by simp)
    have hne : a ≠ k := by omega
    simp only [Memory.read, hne, if_false]
    exact ih fun c hc => h c (by simp [hc])

theorem Memory.read_write_same (m : Memory) (a : Nat) (b : Byte) (hm : m.Pairwise fun p q => p.1 < q.1) :
    Memory.read (Memory.write m a b) a = b := by
  induction m with
  | nil => by_cases hb : b = Memory.unlisted <;> simp [Memory.write, Memory.read, hb]
  | cons c m ih =>
    obtain ⟨k, v⟩ := c
    obtain ⟨hk, hm'⟩ := List.pairwise_cons.1 hm
    by_cases hlt : a < k
    · by_cases hb : b = Memory.unlisted
      · have hne : a ≠ k := by omega
        simp only [Memory.write, hlt, hb, if_true, Memory.read, hne, if_false]
        exact Memory.read_eq_unlisted_of_lt fun c hc => by have := hk c hc; simp only at this; omega
      · simp [Memory.write, hlt, hb, Memory.read]
    · by_cases heq : a = k
      · subst heq
        by_cases hb : b = Memory.unlisted
        · simp only [Memory.write, hlt, hb, if_true, if_false]
          exact Memory.read_eq_unlisted_of_lt fun c hc => hk c hc
        · simp [Memory.write, hb, Memory.read]
      · simp only [Memory.write, hlt, heq, if_false, Memory.read]
        exact ih hm'

theorem Memory.read_write_other (m : Memory) {a a' : Nat} (b : Byte) (h : a' ≠ a) :
    Memory.read (Memory.write m a b) a' = Memory.read m a' := by
  induction m with
  | nil => by_cases hb : b = Memory.unlisted <;> simp [Memory.write, Memory.read, hb, h]
  | cons c m ih =>
    obtain ⟨k, v⟩ := c
    by_cases hlt : a < k
    · by_cases hb : b = Memory.unlisted <;> simp [Memory.write, hlt, hb, Memory.read, h]
    · by_cases heq : a = k
      · subst heq
        by_cases hb : b = Memory.unlisted <;> simp [Memory.write, hb, Memory.read, h]
      · simp only [Memory.write, hlt, heq, if_false, Memory.read, ih]

/-- Every entry of a store after a write is the byte written or was there before. -/
theorem Memory.mem_write {m : Memory} {a : Nat} {b : Byte} {c : Host.Cell} (h : c ∈ Memory.write m a b) :
    (c = (a, b) ∧ b ≠ Memory.unlisted) ∨ c ∈ m := by
  induction m with
  | nil =>
    by_cases hb : b = Memory.unlisted <;> simp [Memory.write, hb] at h
    exact .inl ⟨h, hb⟩
  | cons d m ih =>
    obtain ⟨k, v⟩ := d
    by_cases hlt : a < k
    · by_cases hb : b = Memory.unlisted <;> simp [Memory.write, hlt, hb] at h <;> simp_all
    · by_cases heq : a = k
      · subst heq
        by_cases hb : b = Memory.unlisted <;> simp [Memory.write, hb] at h <;> (simp_all; try tauto)
      · simp only [Memory.write, hlt, heq, if_false, List.mem_cons] at h ⊢
        rcases h with h | h
        · exact .inr (.inl h)
        · rcases ih h with h | h
          · exact .inl h
          · exact .inr (.inr h)

theorem Memory.wf_write {m : Memory} (a : Nat) (b : Byte) (hm : Memory.wf m) : Memory.wf (Memory.write m a b) := by
  refine ⟨?_, fun c hc => ?_⟩
  · induction m with
    | nil => by_cases hb : b = Memory.unlisted <;> simp [Memory.write, hb]
    | cons d m ih =>
      obtain ⟨k, v⟩ := d
      obtain ⟨hp, hz⟩ := hm
      obtain ⟨hk, hp'⟩ := List.pairwise_cons.1 hp
      by_cases hlt : a < k
      · by_cases hb : b = Memory.unlisted
        · simpa only [Memory.write, hlt, hb, if_true] using hp
        · simp only [Memory.write, hlt, hb, if_true, if_false]
          refine List.pairwise_cons.2 ⟨fun c hc => ?_, hp⟩
          rcases List.mem_cons.1 hc with rfl | hc
          · exact hlt
          · exact Nat.lt_trans hlt (hk c hc)
      · by_cases heq : a = k
        · subst heq
          by_cases hb : b = Memory.unlisted
          · simpa [Memory.write, hb] using hp'
          · simp only [Memory.write, hb, lt_self_iff_false, if_true, if_false]
            exact List.pairwise_cons.2 ⟨hk, hp'⟩
        · simp only [Memory.write, hlt, heq, if_false]
          refine List.pairwise_cons.2 ⟨fun c hc => ?_, ih ⟨hp', fun c hc => hz c (by simp [hc])⟩⟩
          rcases Memory.mem_write hc with ⟨rfl, -⟩ | hc
          · show k < a
            omega
          · exact hk c hc
  · rcases Memory.mem_write hc with ⟨rfl, hb⟩ | hc
    · exact hb
    · exact hm.2 c hc

theorem Memory.within_write {m : Memory} {n a : Nat} (b : Byte) (ha : a < n) (hm : Memory.within n m) :
    Memory.within n (Memory.write m a b) := fun c hc => by
  rcases Memory.mem_write hc with ⟨rfl, -⟩ | hc
  · exact ha
  · exact hm c hc

theorem StoreOk.write {m : Memory} {n a : Nat} (b : Byte) (ha : a < n) (hm : StoreOk n m) :
    StoreOk n (Memory.write m a b) := ⟨Memory.wf_write a b hm.1, Memory.within_write b ha hm.2⟩

/-! ### Several bytes -/

@[simp] theorem Memory.writeBytes_nil (m : Memory) (a : Nat) : Memory.writeBytes m a [] = m := rfl

@[simp] theorem Memory.writeBytes_cons (m : Memory) (a : Nat) (b : Byte) (bs : List Byte) :
    Memory.writeBytes m a (b :: bs) = Memory.writeBytes (Memory.write m a b) (a + 1) bs := rfl

theorem StoreOk.writeBytes {m : Memory} {n a : Nat} {bs : List Byte} (hb : a + bs.length ≤ n) (hm : StoreOk n m) :
    StoreOk n (Memory.writeBytes m a bs) := by
  induction bs generalizing m a with
  | nil => exact hm
  | cons b bs ih =>
    simp only [List.length_cons] at hb
    exact ih (by omega) (hm.write b (by omega))

/-- What a run of writes leaves at an index: the byte written there, or what was there before. -/
theorem Memory.read_writeBytes {m : Memory} (hm : Memory.wf m) (a : Nat) (bs : List Byte) (i : Nat) :
    Memory.read (Memory.writeBytes m a bs) i
      = if a ≤ i ∧ i < a + bs.length then bs.getD (i - a) 0 else Memory.read m i := by
  induction bs generalizing m a with
  | nil =>
    simp
  | cons b bs ih =>
    rw [Memory.writeBytes_cons, ih (Memory.wf_write a b hm)]
    by_cases h1 : a + 1 ≤ i ∧ i < a + 1 + bs.length
    · have h2 : a ≤ i ∧ i < a + (b :: bs).length := by simp; omega
      rw [if_pos h1, if_pos h2]
      obtain ⟨k, rfl⟩ : ∃ k, i = a + 1 + k := ⟨i - (a + 1), by omega⟩
      have e1 : a + 1 + k - (a + 1) = k := by omega
      have e2 : a + 1 + k - a = k + 1 := by omega
      rw [e1, e2, List.getD_cons_succ]
    · rw [if_neg h1]
      by_cases h3 : i = a
      · subst h3
        rw [Memory.read_write_same _ _ _ hm.1]
        simp
      · have h2 : ¬(a ≤ i ∧ i < a + (b :: bs).length) := by simp; omega
        rw [if_neg h2, Memory.read_write_other _ _ h3]

@[simp] theorem Memory.length_readBytes (m : Memory) (a n : Nat) : (Memory.readBytes m a n).length = n := by
  simp [Memory.readBytes]

theorem Memory.getElem_readBytes (m : Memory) (a n i : Nat) (h : i < (Memory.readBytes m a n).length) :
    (Memory.readBytes m a n)[i] = Memory.read m (a + i) := by
  simp [Memory.readBytes]

/-- Writing bytes and reading them back. -/
theorem Memory.readBytes_writeBytes {m : Memory} (hm : Memory.wf m) (a : Nat) (bs : List Byte) :
    Memory.readBytes (Memory.writeBytes m a bs) a bs.length = bs := by
  refine List.ext_getElem (by simp) fun i h1 h2 => ?_
  rw [Memory.getElem_readBytes, Memory.read_writeBytes hm]
  have : a ≤ a + i ∧ a + i < a + bs.length := by omega
  rw [if_pos this, Nat.add_sub_cancel_left, List.getD_eq_getElem _ _ h2]

/-! ### A store made from a byte sequence -/

theorem Memory.mem_ofBytesFrom {a : Nat} {bs : List Byte} {c : Host.Cell} (h : c ∈ Memory.ofBytesFrom a bs) :
    a ≤ c.1 ∧ c.1 < a + bs.length ∧ c.2 ≠ Memory.unlisted := by
  induction bs generalizing a with
  | nil => simp [Memory.ofBytesFrom] at h
  | cons b bs ih =>
    by_cases hb : b = Memory.unlisted
    · simp only [Memory.ofBytesFrom, hb, if_true] at h
      obtain ⟨h1, h2, h3⟩ := ih h
      exact ⟨by omega, by simp only [List.length_cons]; omega, h3⟩
    · simp only [Memory.ofBytesFrom, hb, if_false, List.mem_cons] at h
      rcases h with rfl | h
      · exact ⟨Nat.le_refl _, by simp, hb⟩
      · obtain ⟨h1, h2, h3⟩ := ih h
        exact ⟨by omega, by simp only [List.length_cons]; omega, h3⟩

theorem Memory.wf_ofBytesFrom (a : Nat) (bs : List Byte) : Memory.wf (Memory.ofBytesFrom a bs) := by
  refine ⟨?_, fun c hc => (Memory.mem_ofBytesFrom hc).2.2⟩
  induction bs generalizing a with
  | nil => simp [Memory.ofBytesFrom]
  | cons b bs ih =>
    by_cases hb : b = Memory.unlisted
    · simpa [Memory.ofBytesFrom, hb] using ih (a + 1)
    · simp only [Memory.ofBytesFrom, hb, if_false]
      refine List.pairwise_cons.2 ⟨fun c hc => ?_, ih (a + 1)⟩
      have h := (Memory.mem_ofBytesFrom hc).1
      exact h

/-- The store of a result is canonical and within its length (42_formatter.md R179). -/
theorem StoreOk.ofBytes {n : Nat} {bs : List Byte} (h : bs.length ≤ n) : StoreOk n (Memory.ofBytes bs) :=
  ⟨Memory.wf_ofBytesFrom 0 bs, fun _ hc => by have := (Memory.mem_ofBytesFrom hc).2.1; omega⟩

theorem Memory.read_ofBytesFrom (a : Nat) (bs : List Byte) (i : Nat) :
    Memory.read (Memory.ofBytesFrom a bs) (a + i) = bs.getD i 0 := by
  induction bs generalizing a i with
  | nil => rfl
  | cons b bs ih =>
    cases i with
    | zero =>
      by_cases hb : b = Memory.unlisted
      · simp only [Memory.ofBytesFrom, hb, if_true]
        rw [Memory.read_eq_unlisted_of_lt fun c hc => by have := (Memory.mem_ofBytesFrom hc).1; omega]
        rfl
      · simp [Memory.ofBytesFrom, hb, Memory.read]
    | succ i =>
      have e : a + (i + 1) = a + 1 + i := by omega
      by_cases hb : b = Memory.unlisted
      · simp only [Memory.ofBytesFrom, hb, if_true]
        rw [e, ih (a + 1) i, List.getD_cons_succ]
      · have hne : a + 1 + i ≠ a := by omega
        simp only [Memory.ofBytesFrom, hb, if_false]
        rw [e, Memory.read, if_neg hne, ih (a + 1) i, List.getD_cons_succ]

/-- What a result's store reads: its bytes, and 0x00 after them (42_formatter.md R179). -/
theorem Memory.read_ofBytes (bs : List Byte) (i : Nat) : Memory.read (Memory.ofBytes bs) i = bs.getD i 0 := by
  simpa [Memory.ofBytes] using Memory.read_ofBytesFrom 0 bs i

/-! ### Canonical stores that read alike are equal -/

theorem Memory.read_cons_self (k : Nat) (v : Byte) (m : Memory) : Memory.read ((k, v) :: m) k = v := by
  simp [Memory.read]

theorem Memory.ext_of_read {m m' : Memory} (hm : Memory.wf m) (hm' : Memory.wf m')
    (h : ∀ a, Memory.read m a = Memory.read m' a) : m = m' := by
  induction m generalizing m' with
  | nil =>
    cases m' with
    | nil => rfl
    | cons c m' =>
      obtain ⟨k, v⟩ := c
      have := h k
      rw [Memory.read_cons_self] at this
      exact absurd this.symm (hm'.2 (k, v) (by simp))
  | cons c m ih =>
    obtain ⟨k, v⟩ := c
    have hv : v ≠ Memory.unlisted := hm.2 (k, v) (by simp)
    obtain ⟨hk, hp⟩ := List.pairwise_cons.1 hm.1
    cases m' with
    | nil =>
      have := h k
      rw [Memory.read_cons_self] at this
      exact absurd this hv
    | cons c' m' =>
      obtain ⟨k', v'⟩ := c'
      have hv' : v' ≠ Memory.unlisted := hm'.2 (k', v') (by simp)
      obtain ⟨hk', hp'⟩ := List.pairwise_cons.1 hm'.1
      have hkk : k = k' := by
        rcases Nat.lt_trichotomy k k' with hlt | heq | hlt
        · have e := h k
          rw [Memory.read_cons_self, Memory.read_eq_unlisted_of_lt (m := (k', v') :: m')] at e
          · exact absurd e hv
          · intro c hc
            rcases List.mem_cons.1 hc with rfl | hc
            · exact hlt
            · exact Nat.lt_trans hlt (hk' c hc)
        · exact heq
        · have e := h k'
          rw [Memory.read_cons_self, Memory.read_eq_unlisted_of_lt (m := (k, v) :: m)] at e
          · exact absurd e.symm hv'
          · intro c hc
            rcases List.mem_cons.1 hc with rfl | hc
            · exact hlt
            · exact Nat.lt_trans hlt (hk c hc)
      subst hkk
      have hvv : v = v' := by simpa [Memory.read] using h k
      subst hvv
      have hrest : m = m' := by
        refine ih ⟨hp, fun c hc => hm.2 c (by simp [hc])⟩ ⟨hp', fun c hc => hm'.2 c (by simp [hc])⟩ fun a => ?_
        by_cases ha : a = k
        · subst ha
          rw [Memory.read_eq_unlisted_of_lt hk, Memory.read_eq_unlisted_of_lt hk']
        · simpa [Memory.read, ha] using h a
      rw [hrest]

/-! ### Reset -/

theorem StoreOk.nil (n : Nat) : StoreOk n [] := ⟨⟨List.Pairwise.nil, by simp⟩, by simp⟩

/-- Every byte store is canonical, and empty, after hardware reset (10_state.md R65). -/
theorem reset_stores_ok (c : Config) (sp : Space) (n : Nat) : StoreOk n ((State.resetOf c).store sp) := by
  cases sp with
  | slot i =>
    have h : (List.replicate c.numSlots Slot.initial).getD i Slot.initial = Slot.initial := by
      by_cases hi : i < c.numSlots <;> simp [List.getD, hi]
    show StoreOk n ((List.replicate c.numSlots Slot.initial).getD i Slot.initial).buf
    rw [h]
    exact StoreOk.nil n
  | _ => exact StoreOk.nil n

end Sys2Proof.Machine
end

