-- ==== Sys2Proof/Laws/Step.lean ====
section
/-! SUPPORT. One lemma per shared operation that says everything it can do: the end of a command, the keyed frame, the
free slot, the completion, and the step. -/

namespace Sys2Proof.Machine

@[simp] theorem complete_eq (s : State) : complete s = .next (finish none s) := rfl

@[simp] theorem raiseError_eq (e : CmdError) (s : State) : raiseError e s = .next (finish (some e) s) := rfl

@[simp] theorem finish_consumeKey (e : Option CmdError) (s : State) : finish e (consumeKey s) = keyedEnd e s := rfl

/-- Every outcome of a keyed command is the end of one: the body's result, its error, or a wrong key length
(43_commands.md R191). -/
theorem keyed_eq (onRaise : State → State) (body : Key → State → Except CmdError State) (s : State) :
    keyed onRaise body s = .next
      (if s.keylen = 8 then
        match body (keyOperand s) s with
        | .ok t => keyedEnd none t
        | .error e => keyedEnd (some e) (onRaise s)
      else keyedEnd (some .invalidKeyLength) (onRaise s)) := by
  unfold keyed
  by_cases h : s.keylen = 8
  · simp only [h, if_true]
    cases body (keyOperand s) s <;> rfl
  · simp only [h, if_false]; rfl

/-- The slot found free is in the slot file and FREE, and no slot below it is (43_commands.md R200). -/
theorem freeSlot_some {s : State} {i : Nat} (h : freeSlot s = some i) :
    ∃ hi : i < s.slots.length, s.slots[i].state = .free ∧ ∀ j (hj : j < i), s.slots[j].state = .live := by
  obtain ⟨hi, hp, hlt⟩ := List.findIdx?_eq_some_iff_getElem.1 h
  refine ⟨hi, by simpa using hp, fun j hj => ?_⟩
  have := hlt j hj
  cases hs : s.slots[j].state with
  | free => simp [hs] at this
  | live => rfl

/-- No slot is FREE where none is found (43_commands.md R192). -/
theorem freeSlot_none {s : State} (h : freeSlot s = none) : ∀ sl ∈ s.slots, sl.state = .live := by
  intro sl hsl
  have := (List.findIdx?_eq_none_iff.1 h) sl hsl
  cases hs : sl.state with
  | free => simp [hs] at this
  | live => rfl

/-- A live handle names a LIVE slot of the slot file, of the handle's generation (10_state.md R47). -/
theorem live_iff {s : State} {h : Word} :
    live s h = true ↔ ∃ sl, s.slots[handleSlot h]? = some sl ∧ sl.state = .live ∧ sl.gen = handleGen h := by
  unfold live
  cases hs : s.slots[handleSlot h]? with
  | none => simp
  | some sl => simp

/-- Where the sequencer moves, the step is the completion (60_exceptions.md R226). -/
theorem step_of_sequencerMoves {s : State} (h : sequencerMoves s) : step s = completion s.pop := by
  obtain ⟨hb, hr, ht⟩ := h
  cases hts : s.turns with
  | nil =>
    have hp : s.pop = s := by
      cases s; simp only [State.pop] at hts ⊢; subst hts; rfl
    rw [hp]
    simp [step, hts, restTurn, coreTurn, hb, hr]
  | cons t rest =>
    have : t = .core := by simpa [hts] using ht
    subst this
    simp [step, hts, takeTurn, coreTurn, hb, hr, State.pop]

/-- Where the host moves, the step is its transaction (20_memory.md R71). -/
theorem step_of_hostMoves {x : Xact} {s : State} (h : hostMoves x s) : step s = .next (hostStep x s.pop) := by
  obtain ⟨hr, ht⟩ := h
  cases hts : s.turns with
  | nil => simp [hts] at ht
  | cons t rest =>
    have : t = .host x := by simpa [hts] using ht
    subst this
    simp [step, hts, takeTurn, hr, State.pop]

/-- Everything a step can be: a completion, a transaction, a reset edge, nothing, or one of the two stops. -/
theorem step_cases (s : State) :
    (sequencerMoves s ∧ step s = completion s.pop) ∨
    (∃ x, hostMoves x s ∧ step s = .next (hostStep x s.pop)) ∨
    (s.turns.head? = some .assertReset ∧ step s = .next { resetBlock s.pop with inReset := true }) ∨
    (s.turns.head? = some .deassertReset ∧ step s = .next { s.pop with inReset := false }) ∨
    ((s.busy = false ∨ s.inReset = true) ∧ (s.turns = [] ∨ s.turns.head? = some .core) ∧ step s = .next s.pop) ∨
    (∃ x, s.inReset = true ∧ s.turns.head? = some (.host x) ∧ step s = .fault .hostDuringReset) ∨
    (∃ h, s.turns.head? = some (.freeElsewhere h) ∧ step s = .refused .crossAllocatorRelease) := by
  by_cases hm : sequencerMoves s
  · exact .inl ⟨hm, step_of_sequencerMoves hm⟩
  have hidle : s.turns = [] ∨ s.turns.head? = some .core → (s.busy = false ∨ s.inReset = true) ∧
      (s.busy && !s.inReset) = false := by
    intro ht
    cases hb : s.busy <;> cases hr : s.inReset <;> simp
    exact hm ⟨hb, hr, ht⟩
  cases hts : s.turns with
  | nil =>
    obtain ⟨h1, h2⟩ := hidle (.inl hts)
    have hp : s.pop = s := by cases s; simp only [State.pop] at hts ⊢; subst hts; rfl
    refine .inr (.inr (.inr (.inr (.inl ⟨h1, .inl rfl, ?_⟩))))
    rw [hp]
    simp [step, hts, restTurn, coreTurn, h2]
  | cons t rest =>
    have hp : s.pop = { s with turns := rest } := by simp [State.pop, hts]
    cases t with
    | core =>
      obtain ⟨h1, h2⟩ := hidle (.inr (by rw [hts]; rfl))
      refine .inr (.inr (.inr (.inr (.inl ⟨h1, .inr rfl, ?_⟩))))
      simp [step, hts, takeTurn, coreTurn, h2, hp]
    | host x =>
      cases hr : s.inReset with
      | false => exact .inr (.inl ⟨x, ⟨hr, by rw [hts]; rfl⟩, step_of_hostMoves ⟨hr, by rw [hts]; rfl⟩⟩)
      | true =>
        refine .inr (.inr (.inr (.inr (.inr (.inl ⟨x, rfl, rfl, ?_⟩)))))
        simp [step, hts, takeTurn, hr]
    | assertReset => exact .inr (.inr (.inl ⟨rfl, by simp [step, hts, takeTurn, hp]⟩))
    | deassertReset => exact .inr (.inr (.inr (.inl ⟨rfl, by simp [step, hts, takeTurn, hp]⟩)))
    | freeElsewhere h =>
      exact .inr (.inr (.inr (.inr (.inr (.inr ⟨h, rfl, by simp [step, hts, takeTurn]⟩)))))

/-- Everything a legal write can do to the block, at whatever offset (20_memory.md R75, R77). -/
theorem wbyte_cases (o : Nat) (b : Byte) (s : State) :
    (s.busy = true ∧ wbyte o b s = dropWrite s) ∨ wbyte o b s = s ∨
    (s.busy = false ∧ 0x030 ≤ o ∧ o ≤ 0x037 ∧ wbyte o b s = memWrite .keyb (o - 0x030) [b] s) ∨
    (s.busy = false ∧ 0x038 ≤ o ∧ o ≤ 0x03F ∧ wbyte o b s = memWrite .din (o - 0x038) [b] s) ∨
    (s.busy = false ∧ 0x400 ≤ o ∧ o < 0x400 + s.cfg.ibufBytes ∧ wbyte o b s = memWrite .ibuf (o - 0x400) [b] s) := by
  unfold wbyte
  by_cases h : (0x030 ≤ o ∧ o ≤ 0x03F) ∨ (0x400 ≤ o ∧ o < 0x400 + s.cfg.ibufBytes)
  · rw [if_pos h]
    cases hb : s.busy with
    | true => exact .inl ⟨rfl, by simp⟩
    | false =>
      by_cases h1 : o ≤ 0x037
      · exact .inr (.inr (.inl ⟨rfl, by omega, h1, by simp [h1]⟩))
      · by_cases h2 : o ≤ 0x03F
        · exact .inr (.inr (.inr (.inl ⟨rfl, by omega, h2, by simp [h1, h2]⟩)))
        · exact .inr (.inr (.inr (.inr ⟨rfl, by omega, by omega, by simp [h1, h2]⟩)))
  · exact .inr (.inl (by rw [if_neg h]))

end Sys2Proof.Machine
end

