-- ==== Sys2Proof/Laws/Bus.lean ====
section
/-! SUPPORT. What a host write can touch: one lemma that says everything a legal write can do, field by field, and its
use for the host's step. -/

namespace Sys2Proof.Machine

/-- Two states that differ at most in the byte stores KEYB, DIN and IBUF and in WERR: all that a byte write can touch
(20_memory.md R75, R78). -/
structure SameButInputs (s t : State) : Prop where
  eq : t = { s with keyb := t.keyb, din := t.din, ibuf := t.ibuf, werr := t.werr }

theorem SameButInputs.refl (s : State) : SameButInputs s s := ⟨rfl⟩

theorem SameButInputs.trans {s t u : State} (h : SameButInputs s t) (h' : SameButInputs t u) : SameButInputs s u :=
  ⟨by rw [h'.eq, h.eq]⟩

theorem wbyte_same (o : Nat) (b : Byte) (s : State) : SameButInputs s (wbyte o b s) := by
  rcases wbyte_cases o b s with ⟨_, e⟩ | e | ⟨_, _, _, e⟩ | ⟨_, _, _, e⟩ | ⟨_, _, _, e⟩ <;> rw [e] <;> exact ⟨rfl⟩

/-- A byte write touches WERR only while busy (20_memory.md R78). -/
theorem wbyte_werr {o : Nat} {b : Byte} {s : State} (h : s.busy = false) : (wbyte o b s).werr = s.werr := by
  rcases wbyte_cases o b s with ⟨hb, e⟩ | e | ⟨_, _, _, e⟩ | ⟨_, _, _, e⟩ | ⟨_, _, _, e⟩
  · rw [h] at hb; cases hb
  all_goals rw [e]; try simp

/-- A byte write at an offset that is no input of a command changes nothing (20_memory.md R75). -/
theorem wbyte_other {o : Nat} {s : State} (b : Byte) (ho : 0x030 ≤ o) (h : ¬commandInput s.cfg o) : wbyte o b s = s := by
  unfold wbyte
  rw [if_neg]
  intro hc
  exact h (by unfold commandInput; omega)

/-- A byte write while busy is dropped at an input of a command and nothing elsewhere (20_memory.md R78). -/
theorem wbyte_busy {o : Nat} {s : State} (b : Byte) (ho : 0x030 ≤ o) (hb : s.busy = true) :
    wbyte o b s = if commandInput s.cfg o then dropWrite s else s := by
  by_cases h : commandInput s.cfg o
  · rw [if_pos h, wbyte, if_pos (by unfold commandInput at h; omega), if_pos hb]
  · rw [if_neg h, wbyte_other b ho h]

theorem wword_same (a : Nat) (w : Word) (s : State) : SameButInputs s (wword a w s) :=
  (wbyte_same _ _ _).trans ((wbyte_same _ _ _).trans ((wbyte_same _ _ _).trans (wbyte_same _ _ _)))

/-- Every outcome of a control register write (20_memory.md R77). -/
theorem ctrlWrite_cases (o : Nat) (w : Word) (s : State) :
    (o = 0x008 ∧ ctrlWrite o w s = writeCtrl w s) ∨
    (o = 0x00C ∧ ctrlWrite o w s = writeStatus w s) ∨
    ((o = 0x010 ∨ o = 0x014 ∨ o = 0x018 ∨ o = 0x01C) ∧ s.busy = true ∧ ctrlWrite o w s = dropWrite s) ∨
    (o = 0x010 ∧ s.busy = false ∧ ctrlWrite o w s = accept w s) ∨
    (o = 0x014 ∧ s.busy = false ∧ ctrlWrite o w s = { s with keylen := w }) ∨
    (o = 0x018 ∧ s.busy = false ∧ ctrlWrite o w s = { s with mlen := w }) ∨
    (o = 0x01C ∧ s.busy = false ∧ ctrlWrite o w s = { s with harg := w }) ∨
    (o ≠ 0x008 ∧ o ≠ 0x00C ∧ ¬(o = 0x010 ∨ o = 0x014 ∨ o = 0x018 ∨ o = 0x01C) ∧ ctrlWrite o w s = s) := by
  by_cases h1 : o = 0x008
  · exact .inl ⟨h1, by simp [ctrlWrite, h1]⟩
  by_cases h2 : o = 0x00C
  · exact .inr (.inl ⟨h2, by simp [ctrlWrite, h2]⟩)
  by_cases h3 : o = 0x010 ∨ o = 0x014 ∨ o = 0x018 ∨ o = 0x01C
  · cases hb : s.busy with
    | true => exact .inr (.inr (.inl ⟨h3, rfl, by simp [ctrlWrite, h1, h2, h3, hb]⟩))
    | false =>
      rcases h3 with h | h | h | h
      · exact .inr (.inr (.inr (.inl ⟨h, rfl, by simp [ctrlWrite, h, hb]⟩)))
      · exact .inr (.inr (.inr (.inr (.inl ⟨h, rfl, by simp [ctrlWrite, h, hb]⟩))))
      · exact .inr (.inr (.inr (.inr (.inr (.inl ⟨h, rfl, by simp [ctrlWrite, h, hb]⟩)))))
      · exact .inr (.inr (.inr (.inr (.inr (.inr (.inl ⟨h, rfl, by simp [ctrlWrite, h, hb]⟩))))))
  · exact .inr (.inr (.inr (.inr (.inr (.inr (.inr ⟨h1, h2, h3, by simp [ctrlWrite, h1, h2, h3]⟩))))))

/-- Every outcome of a transaction on the block: nothing, a control register write, or byte writes (20_memory.md R71 to
R73). -/
theorem applyXact_cases (x : Xact) (s : State) :
    applyXact x s = s ∨
    (∃ o w, x = .write o .four w ∧ o.toNat % 4 = 0 ∧ o.toNat < 0x030 ∧ applyXact x s = ctrlWrite o.toNat w s) ∨
    (∃ o w, x = .write o .four w ∧ o.toNat % 4 = 0 ∧ 0x030 ≤ o.toNat ∧ applyXact x s = wword o.toNat w s) ∨
    (∃ o w, x = .write o .one w ∧ 0x030 ≤ o.toNat ∧ applyXact x s = wbyte o.toNat (w.extractLsb' 0 8) s) := by
  cases x with
  | read o sz => exact .inl rfl
  | write o sz w =>
    cases sz with
    | two => exact .inl rfl
    | four =>
      by_cases ha : o.toNat % 4 = 0
      · by_cases ho : o.toNat < 0x030
        · exact .inr (.inl ⟨o, w, rfl, ha, ho, by simp [applyXact, legalAccess, writeData, ha, ho]⟩)
        · exact .inr (.inr (.inl ⟨o, w, rfl, ha, by omega, by simp [applyXact, legalAccess, writeData, ha, ho]⟩))
      · exact .inl (by simp [applyXact, legalAccess, ha])
    | one =>
      by_cases ho : 0x030 ≤ o.toNat
      · exact .inr (.inr (.inr ⟨o, w, rfl, ho, by simp [applyXact, legalAccess, writeData, ho]⟩))
      · exact .inl (by simp [applyXact, legalAccess, ho])

end Sys2Proof.Machine
end

