-- ==== Sys2Proof/Laws/Commands.lean ====
section
/-! SUPPORT. One lemma per command that says everything it can do: each outcome, with the conditions under which it is
the outcome. -/

namespace Sys2Proof.Machine

/-- A byte decodes to no value exactly where it is no hexadecimal digit (42_formatter.md R173). -/
theorem hexVal_eq_none (ch : Byte) : hexVal ch = none ↔ ¬HexDigit ch := by
  unfold hexVal HexDigit
  repeat' split
  all_goals simp; omega

/-- A key length other than 8 is the first error of every keyed command (60_exceptions.md R223). -/
theorem firstError_keylen {i : Instr} {s : State} (hi : i.keyed = true) (hk : s.keylen ≠ 8) :
    firstError i s = some .invalidKeyLength := by
  cases i <;> first | exact if_pos hk | cases hi

/-- The free value of the turns has no part in a command's error. -/
@[simp] theorem firstError_pop (i : Instr) (s : State) : firstError i s.pop = firstError i s := by cases i <;> rfl

/-- What a successful ENC stores, as a function of the message and the key (43_commands.md R192). -/
theorem encBody_text (k : Key) (s : State) (t : List Byte) :
    hexEncode (runEngine k .encrypt (blocks (pad t)) s).eng.scratch = encryptText t (deriveSchedule k) := by
  rw [runEngine_scratch]; rfl

/-- Every outcome of ENC (43_commands.md R192). -/
theorem execEnc_cases (s : State) :
    (s.keylen ≠ 8 ∧ exec .enc s = .next (keyedEnd (some .invalidKeyLength) (clearResult s))) ∨
    (s.keylen = 8 ∧ s.mlen.toNat > s.cfg.maxMsg ∧
      exec .enc s = .next (keyedEnd (some .inputTooLong) (clearResult s))) ∨
    (s.keylen = 8 ∧ s.mlen.toNat ≤ s.cfg.maxMsg ∧ freeSlot s = none ∧
      exec .enc s = .next (keyedEnd (some .noFreeHandle) (clearResult s))) ∨
    (∃ i, s.keylen = 8 ∧ s.mlen.toNat ≤ s.cfg.maxMsg ∧ freeSlot s = some i ∧
      exec .enc s = .next (keyedEnd none
        (storeResult i (encryptText (textOperand s) (deriveSchedule (keyOperand s))) s))) := by
  by_cases hk : s.keylen = 8
  · by_cases hm : s.mlen.toNat > s.cfg.maxMsg
    · refine .inr (.inl ⟨hk, hm, ?_⟩)
      rw [exec, execEnc, keyed_eq, if_pos hk]
      simp only [encBody, if_pos hm]
    · have hm' : s.mlen.toNat ≤ s.cfg.maxMsg := by omega
      cases hf : freeSlot s with
      | none =>
        refine .inr (.inr (.inl ⟨hk, hm', rfl, ?_⟩))
        rw [exec, execEnc, keyed_eq, if_pos hk]
        simp only [encBody, if_neg hm, hf]
      | some i =>
        refine .inr (.inr (.inr ⟨i, hk, hm', rfl, ?_⟩))
        rw [exec, execEnc, keyed_eq, if_pos hk]
        simp only [encBody, if_neg hm, hf, encBody_text]
        rfl
  · refine .inl ⟨hk, ?_⟩
    rw [exec, execEnc, keyed_eq, if_neg hk]

/-- Decrypting a text whose structure and characters are right (42_formatter.md R176). -/
theorem decryptText_of_decodeText {h c : List Byte} (sk : Schedule) (hc : decodeText h = some c) :
    decryptText h sk = unpad (join ((blocks c).map fun x => transform x sk .decrypt)) := by
  rw [decryptText, hc]

/-- Every outcome of DEC (43_commands.md R193). -/
theorem execDec_cases (s : State) :
    (s.keylen ≠ 8 ∧ exec .dec s = .next (keyedEnd (some .invalidKeyLength) (clearResult s))) ∨
    (s.keylen = 8 ∧ s.mlen.toNat > s.cfg.maxHex ∧
      exec .dec s = .next (keyedEnd (some .inputTooLong) (clearResult s))) ∨
    (s.keylen = 8 ∧ s.mlen.toNat ≤ s.cfg.maxHex ∧ decodeText (textOperand s) = none ∧
      exec .dec s = .next (keyedEnd (some .malformedEncoding) (clearResult s))) ∨
    (∃ c, s.keylen = 8 ∧ s.mlen.toNat ≤ s.cfg.maxHex ∧ decodeText (textOperand s) = some c ∧ freeSlot s = none ∧
      exec .dec s = .next (keyedEnd (some .noFreeHandle) (clearResult s))) ∨
    (∃ c i, s.keylen = 8 ∧ s.mlen.toNat ≤ s.cfg.maxHex ∧ decodeText (textOperand s) = some c ∧
      freeSlot s = some i ∧ decryptText (textOperand s) (deriveSchedule (keyOperand s)) = none ∧
      exec .dec s = .next (keyedEnd (some .malformedEncoding) (clearResult s))) ∨
    (∃ c i m, s.keylen = 8 ∧ s.mlen.toNat ≤ s.cfg.maxHex ∧ decodeText (textOperand s) = some c ∧
      freeSlot s = some i ∧ decryptText (textOperand s) (deriveSchedule (keyOperand s)) = some m ∧
      exec .dec s = .next (keyedEnd none (storeResult i m s))) := by
  by_cases hk : s.keylen = 8
  · by_cases hm : s.mlen.toNat > s.cfg.maxHex
    · refine .inr (.inl ⟨hk, hm, ?_⟩)
      rw [exec, execDec, keyed_eq, if_pos hk]
      simp only [decBody, if_pos hm]
    · have hm' : s.mlen.toNat ≤ s.cfg.maxHex := by omega
      cases hc : decodeText (textOperand s) with
      | none =>
        refine .inr (.inr (.inl ⟨hk, hm', rfl, ?_⟩))
        rw [exec, execDec, keyed_eq, if_pos hk]
        simp only [decBody, if_neg hm, hc]
      | some c =>
        cases hf : freeSlot s with
        | none =>
          refine .inr (.inr (.inr (.inl ⟨c, hk, hm', rfl, rfl, ?_⟩)))
          rw [exec, execDec, keyed_eq, if_pos hk]
          simp only [decBody, if_neg hm, hc, hf]
        | some i =>
          have he : unpad (runEngine (keyOperand s) .decrypt (blocks c) s).eng.scratch
              = decryptText (textOperand s) (deriveSchedule (keyOperand s)) := by
            rw [runEngine_scratch, decryptText_of_decodeText _ hc]
          cases hu : decryptText (textOperand s) (deriveSchedule (keyOperand s)) with
          | none =>
            refine .inr (.inr (.inr (.inr (.inl ⟨c, i, hk, hm', rfl, rfl, rfl, ?_⟩))))
            rw [exec, execDec, keyed_eq, if_pos hk]
            simp only [decBody, if_neg hm, hc, hf, he, hu]
          | some m =>
            refine .inr (.inr (.inr (.inr (.inr ⟨c, i, m, hk, hm', rfl, rfl, rfl, ?_⟩))))
            rw [exec, execDec, keyed_eq, if_pos hk]
            simp only [decBody, if_neg hm, hc, hf, he, hu]
            rfl
  · refine .inl ⟨hk, ?_⟩
    rw [exec, execDec, keyed_eq, if_neg hk]

/-- The two outcomes of the raw commands' frame (43_commands.md R194, R195). -/
theorem keyed_rawBody (d : Dir) (s : State) :
    (s.keylen ≠ 8 ∧ keyed clearDout (rawBody d) s = .next (keyedEnd (some .invalidKeyLength) (clearDout s))) ∨
    (s.keylen = 8 ∧ keyed clearDout (rawBody d) s = .next (keyedEnd none
      (memWrite .dout 0 (bytes8 (transform (blockOperand s) (deriveSchedule (keyOperand s)) d)) s))) := by
  by_cases hk : s.keylen = 8
  · refine .inr ⟨hk, ?_⟩
    rw [keyed_eq, if_pos hk]
    simp only [rawBody, runEngine_scratch, join, List.map_cons, List.map_nil, List.flatMap_cons, List.flatMap_nil,
      List.append_nil]
    rfl
  · refine .inl ⟨hk, ?_⟩
    rw [keyed_eq, if_neg hk]

/-- Every outcome of ENCB (43_commands.md R194). -/
theorem execEncb_cases (s : State) :
    (s.keylen ≠ 8 ∧ exec .encb s = .next (keyedEnd (some .invalidKeyLength) (clearDout s))) ∨
    (s.keylen = 8 ∧ exec .encb s = .next (keyedEnd none
      (memWrite .dout 0 (bytes8 (transform (blockOperand s) (deriveSchedule (keyOperand s)) .encrypt)) s))) :=
  keyed_rawBody .encrypt s

/-- Every outcome of DECB (43_commands.md R195). -/
theorem execDecb_cases (s : State) :
    (s.keylen ≠ 8 ∧ exec .decb s = .next (keyedEnd (some .invalidKeyLength) (clearDout s))) ∨
    (s.keylen = 8 ∧ exec .decb s = .next (keyedEnd none
      (memWrite .dout 0 (bytes8 (transform (blockOperand s) (deriveSchedule (keyOperand s)) .decrypt)) s))) :=
  keyed_rawBody .decrypt s

/-- Every outcome of SEL (43_commands.md R196). -/
theorem execSel_cases (s : State) :
    (live s s.harg = true ∧ exec .sel s = .next (finish none { s with selv := true, selh := s.harg })) ∨
    (live s s.harg = false ∧ exec .sel s = .next (finish (some .useAfterRelease) { s with selv := false })) := by
  cases h : live s s.harg <;> simp [exec, execSel, h]

/-- Every outcome of REL (43_commands.md R197). -/
theorem execRel_cases (s : State) :
    (live s s.harg = true ∧
      exec .rel s = .next (finish none (deselect s.harg (releaseSlot (handleSlot s.harg) s)))) ∨
    (live s s.harg = false ∧ exec .rel s = .next (finish (some .doubleRelease) s)) := by
  cases h : live s s.harg <;> simp [exec, execRel, h]

/-- The one outcome of CLR (43_commands.md R198). -/
theorem execClr_eq (s : State) : exec .clr s = .next (finish none (clearBlock s)) := rfl

end Sys2Proof.Machine
end

