-- ==== Sys2Proof/Laws/PerInstr.lean ====
section
/-! SUPPORT. Statements about every command as syntax, one lemma per constructor of Instr. -/

namespace Sys2Proof.Laws.TableWord

/-- The command is well formed, and the decoder reads it from its 32-bit word of the opcode table (30_encoding.md R101). -/
def Statement (i : Instr) : Prop := i.wellFormed = true ∧ decodeTableWord 32 (encode i).toNat = some i

theorem enc : Statement .enc := ⟨by decide, by decide⟩
theorem dec : Statement .dec := ⟨by decide, by decide⟩
theorem encb : Statement .encb := ⟨by decide, by decide⟩
theorem decb : Statement .decb := ⟨by decide, by decide⟩
theorem sel : Statement .sel := ⟨by decide, by decide⟩
theorem rel : Statement .rel := ⟨by decide, by decide⟩
theorem clr : Statement .clr := ⟨by decide, by decide⟩

end Sys2Proof.Laws.TableWord
end

