-- ==== Sys2Proof/Tests/Slice0.lean ====
section
/-! SUPPORT. Tests of the model on values of 95_test_vectors.md and of the rules, and, for every statement of
Certificates/Slice0/Obligations.lean that has hypotheses, a concrete state and operands that meet them together. -/

namespace Sys2Proof.Tests

open Sys2Proof.Machine

/-! ### Helpers -/

/-- A check of the state an outcome goes on with; `false` where it stops. -/
def nextIs (o : Host.Outcome State Fault Refusal) (p : State → Bool) : Bool :=
  match o with
  | .next t => p t
  | .fault _ => false
  | .refused _ => false

theorem exists_next {o : Host.Outcome State Fault Refusal} {p : State → Bool} (h : nextIs o p = true) :
    ∃ t, o = .next t ∧ p t = true := by
  cases o with
  | next t => exact ⟨t, rfl, h⟩
  | fault r => cases h
  | refused r => cases h

/-- The key of the spec's vectors. -/
def key1 : Key := 0x133457799BBCDFF1

/-- "hello". -/
def hello : List Byte := [0x68, 0x65, 0x6C, 0x6C, 0x6F]

/-- "180F8B044A211D47", the encryption of "hello" under `key1` (95_test_vectors.md). -/
def helloHex : List Byte :=
  [0x31, 0x38, 0x30, 0x46, 0x38, 0x42, 0x30, 0x34, 0x34, 0x41, 0x32, 0x31, 0x31, 0x44, 0x34, 0x37]

/-- "948A43F98A834F7E", whose decryption under `key1` is not padded (42_formatter.md R176). -/
def badPadHex : List Byte :=
  [0x39, 0x34, 0x38, 0x41, 0x34, 0x33, 0x46, 0x39, 0x38, 0x41, 0x38, 0x33, 0x34, 0x46, 0x37, 0x45]

/-- Reset, then the key, its length and a text. -/
def keyedState (text : List Byte) : State :=
  { State.reset with keylen := 8, keyb := Memory.ofBytes (bytes8 key1), ibuf := Memory.ofBytes text
                     mlen := BitVec.ofNat 32 text.length }

/-- Every slot LIVE, as four ENC of the empty message leave GEN. -/
def fullSlots : List Slot := List.replicate 4 { state := .live, gen := 1, len := 0, buf := [] }

/-- Handle 0x10 is live and selected; slot 0 holds "hello". -/
def selectedState : State :=
  { State.reset with slots := [{ state := .live, gen := 1, len := 5, buf := Memory.ofBytes hello }]
                                ++ List.replicate 3 Slot.initial
                     selv := true, selh := 0x10, harg := 0x10, rhandle := 0x10, rlen := 5 }

/-- The state with a command accepted and the sequencer's turn next. -/
def running (i : Instr) (s : State) : State := { s with pcmd := encode i, busy := true, turns := [.core] }

/-- The state with one host turn listed. -/
def hosted (x : Xact) (s : State) : State := { s with turns := [.host x] }

/-- The conditions the clauses about DEC share: an 8-byte key and a text that fits. -/
abbrev DecReady (s : State) : Prop := s.keylen = 8 ∧ s.mlen.toNat ≤ s.cfg.maxHex

/-- And a text of whole blocks of hexadecimal digits. -/
abbrev DecText (s : State) : Prop :=
  DecReady s ∧ s.mlen ≠ 0 ∧ s.mlen.toNat % 16 = 0 ∧ ∀ ch ∈ memRead .ibuf 0 s.mlen.toNat s, HexDigit ch

/-- The checks of `SlotOk`, as one decidable proposition. -/
abbrev SlotChecks (c : Config) (sl : Slot) : Prop :=
  StoreOk sl.len.toNat sl.buf ∧ sl.len.toNat < c.slotBytes ∧ (sl.state = .free → sl.len = 0 ∧ sl.buf = []) ∧
  (sl.state = .live → sl.gen ≠ 0)

/-- The checks of `Inv`, as one decidable proposition. -/
abbrev InvChecks (s : State) : Prop :=
  s.cfg.legal = true ∧ StoreOk 8 s.keyb ∧ StoreOk 8 s.din ∧ StoreOk 8 s.dout ∧ StoreOk s.cfg.ibufBytes s.ibuf ∧
  s.slots.length = s.cfg.numSlots ∧ (∀ sl ∈ s.slots, SlotChecks s.cfg sl) ∧
  (s.selv = true → live s s.selh = true) ∧ s.eng = Engine.zero ∧
  (s.busy = true → s.done = false ∧ s.errcode = none) ∧ s.rlen.toNat < s.cfg.slotBytes ∧
  (s.rhandle = 0 ∨ (handleGen s.rhandle ≠ 0 ∧ handleSlot s.rhandle < s.cfg.numSlots)) ∧
  (s.inReset = true → s = { State.resetOf s.cfg with inReset := true, turns := s.turns, replies := s.replies })

theorem inv_of_checks {s : State} (h : InvChecks s) : Inv s := by
  obtain ⟨h1, h2, h3, h4, h5, h6, h7, h8, h9, h10, h11, h12, h13⟩ := h
  exact ⟨h1, h2, h3, h4, h5, h6, fun sl hsl => ⟨(h7 sl hsl).1, (h7 sl hsl).2.1, (h7 sl hsl).2.2.1, (h7 sl hsl).2.2.2⟩,
    h8, h9, h10, h11, h12, h13⟩

/-! ### WellFormed: an ill-formed term for each check, which the check refuses -/

theorem test_wf_no_blocks : Config.legal { maxBlocks := 0, numSlots := 4 } = false := by decide
theorem test_wf_too_many_blocks : Config.legal { maxBlocks := 65, numSlots := 4 } = false := by decide
theorem test_wf_no_slots : Config.legal { maxBlocks := 32, numSlots := 0 } = false := by decide
theorem test_wf_too_many_slots : Config.legal { maxBlocks := 32, numSlots := 16 } = false := by decide
theorem test_wf_config_bounds :
    Config.legal { maxBlocks := 1, numSlots := 1 } = true ∧ Config.legal { maxBlocks := 64, numSlots := 15 } = true := by
  decide
theorem test_wf_text_too_long : HostLine.wellFormed (.text (List.replicate 1025 0x41)) = false := by decide +kernel
theorem test_wf_every_command :
    ∀ i ∈ [Instr.enc, .dec, .encb, .decb, .sel, .rel, .clr], i.wellFormed = true := by decide

/-! ### Decode: words written out bit by bit from 30_encoding.md R100 and R101 -/

theorem test_decode_enc : decode 0b00000000000000000000000000000001 = .ok .enc := by decide
theorem test_decode_dec : decode 0b00000000000000000000000000000010 = .ok .dec := by decide
theorem test_decode_encb : decode 0b00000000000000000000000000000011 = .ok .encb := by decide
theorem test_decode_decb : decode 0b00000000000000000000000000000100 = .ok .decb := by decide
theorem test_decode_sel : decode 0b00000000000000000000000000000101 = .ok .sel := by decide
theorem test_decode_rel : decode 0b00000000000000000000000000000110 = .ok .rel := by decide
theorem test_decode_clr : decode 0b00000000000000000000000000000111 = .ok .clr := by decide
/-- V-CMD-37 to V-CMD-37d. -/
theorem test_decode_illegal : ([(0x00000000 : Word), 0x00000008, 0x000000FF, 0x00000101, 0x80000001].all fun w =>
    match decode w with | .ok _ => false | .error _ => true) = true := by decide

/-! ### One command each, from 95_test_vectors.md -/

/-- V-FM-4, program P2: "hello" becomes "180F8B044A211D47" in slot 0, handle 0x10. -/
theorem test_enc_hello : nextIs (exec .enc (keyedState hello)) (fun t =>
    decide (t.rhandle = 0x10 ∧ t.rlen = 16 ∧ statusWord t = 0x02 ∧ t.keylen = 0 ∧
      (t.slots.map fun sl => Memory.readBytes sl.buf 0 17)[0]? = some (helloHex ++ [0x00]))) = true := by
  decide +kernel

/-- V-CMD-2: KEYLEN 7. -/
theorem test_enc_key_length : nextIs (exec .enc { keyedState hello with keylen := 7 }) (fun t =>
    decide (statusWord t = 0x12 ∧ t.rhandle = 0 ∧ t.keyb = [])) = true := by decide

/-- Program P3: DEC of "180F8B044A211D47". -/
theorem test_dec_hello : nextIs (exec .dec (keyedState helloHex)) (fun t =>
    decide (t.rhandle = 0x10 ∧ t.rlen = 5 ∧ statusWord t = 0x02 ∧
      (t.slots.map fun sl => Memory.readBytes sl.buf 0 6)[0]? = some (hello ++ [0x00]))) = true := by
  decide +kernel

/-- 42_formatter.md R176: a text whose decryption is not padded. -/
theorem test_dec_bad_pad : nextIs (exec .dec (keyedState badPadHex)) (fun t =>
    decide (statusWord t = 0x32 ∧ t.rhandle = 0 ∧ t.slots = State.reset.slots)) = true := by decide +kernel

/-- L1-1, program P1: the known-answer vector as a command. -/
theorem test_encb_known_answer :
    nextIs (exec .encb { keyedState [] with din := Memory.ofBytes (bytes8 0x0123456789ABCDEF) }) (fun t =>
      decide (Memory.readBytes t.dout 0 8 = [0x85, 0xE8, 0x13, 0x54, 0x0F, 0x0A, 0xB4, 0x05] ∧
        statusWord t = 0x02)) = true := by decide +kernel

/-- L1-1, its inverse. -/
theorem test_decb_known_answer :
    nextIs (exec .decb { keyedState [] with din := Memory.ofBytes (bytes8 0x85E813540F0AB405) }) (fun t =>
      decide (Memory.readBytes t.dout 0 8 = [0x01, 0x23, 0x45, 0x67, 0x89, 0xAB, 0xCD, 0xEF] ∧
        statusWord t = 0x02)) = true := by decide +kernel

/-- Program P2: SEL of 0x10. -/
theorem test_sel_live : nextIs (exec .sel { selectedState with selv := false }) (fun t =>
    decide (t.selv = true ∧ t.selh = 0x10 ∧ selView t = 0x00050001 ∧ statusWord t = 0x02)) = true := by decide

/-- V-CMD-30: a stale or forged handle deselects. -/
theorem test_sel_stale : nextIs (exec .sel { selectedState with harg := 0x20 }) (fun t =>
    decide (t.selv = false ∧ statusWord t = 0x52 ∧ selView t = 0)) = true := by decide

/-- V-CMD-33: REL of the selected handle deselects; GEN stays. -/
theorem test_rel_selected : nextIs (exec .rel selectedState) (fun t =>
    decide (t.selv = false ∧ statusWord t = 0x02 ∧ live t 0x10 = false ∧ (t.slots.map Slot.gen)[0]? = some 1)) = true := by
  decide

/-- V-CMD-32: a second release. -/
theorem test_rel_twice : nextIs (exec .rel State.reset) (fun t =>
    decide (statusWord t = 0x42 ∧ t.slots = State.reset.slots)) = true := by decide

/-- V-CMD-35: CLR keeps CTRL and GEN, clears WERR, and completes. -/
theorem test_clr : nextIs (exec .clr { selectedState with irqEn := true, werr := true, mlen := 3 }) (fun t =>
    decide (statusWord t = 0x02 ∧ ctrlWord t = 1 ∧ irq t = true ∧ t.mlen = 0 ∧ t.harg = 0 ∧ t.rhandle = 0 ∧
      (t.slots.map fun sl => (sl.state, sl.gen))[0]? = some (.free, 1))) = true := by decide

/-- V-CMD-37: an illegal word; the key is not consumed. -/
theorem test_illegal_word : nextIs (completion { keyedState [] with pcmd := 0x00000101, busy := true }) (fun t =>
    decide (statusWord t = 0x62 ∧ t.keylen = 8 ∧ t.keyb = (keyedState []).keyb)) = true := by decide

/-! ### The cipher and the bus -/

/-- V-FE-3: a single set bit through IP and E. -/
theorem test_permutations :
    permute 64 ip (0x8000000000000000 : Block) = 0x0000000001000000 ∧
    permute 48 expansion (0x80000000 : Half) = 0x400000000001 ∧
    permute 32 roundPerm (0x80000000 : Half) = 0x00800000 := by decide

/-- V-SB-2, rows 0x01 and 0x20. -/
theorem test_sboxes : sbox 0x041041041041 = 0x03DDEAD1 ∧ sbox 0x820820820820 = 0x40DA4917 := by decide

/-- V-BUS-9: bytes in KEYB, and 0 on reading them back. -/
theorem test_key_write_only :
    Memory.readBytes (applyXact (.write 0x030 .four 0x79573413) State.reset).keyb 0 4 = [0x13, 0x34, 0x57, 0x79] ∧
    replyOf (applyXact (.write 0x030 .four 0x79573413) State.reset) (.read 0x030 .four) = .read 0 .okay := by
  decide

/-- V-BUS-12: IBUF index 512 reads as zero and ignores writes. -/
theorem test_ibuf_end : applyXact (.write 0x600 .four 0xDEADBEEF) State.reset = State.reset := by decide

/-- V-BUS-24 and V-BUS-25 on "hello": its second byte, its NUL, and beyond SLOT_BYTES. -/
theorem test_window :
    replyOf selectedState (.read 0x801 .one) = .read 0x65 .okay ∧
    replyOf selectedState (.read 0x805 .one) = .read 0 .okay ∧
    replyOf selectedState (.read 0xA01 .one) = .read 0 .okay := by decide

/-! ### Witnesses, in the order of OBLIGATIONS.json -/

theorem witness_IllegalWords : ∃ (w : Word) (s s' : State),
    s.busy = false ∧ hostMoves (.write 0x010 .four w) s ∧
    (¬∃ i, decode w = .ok i) ∧ s'.pcmd = w ∧ sequencerMoves s' :=
  ⟨0x00000008, hosted (.write 0x010 .four 0x00000008) State.reset,
    { State.reset with busy := true, pcmd := 0x00000008 }, rfl, by decide, by rintro ⟨i, h⟩; cases i <;> revert h <;> decide,
    rfl, by decide⟩

theorem witness_CompletionStep : ∀ i ∈ [Instr.enc, .dec, .encb, .decb, .sel, .rel, .clr],
    completes i (running i State.reset) := by decide

theorem witness_PlacedWord :
    decodeTableWord 32 0x00000001 = some .enc ∧ decodeTableWord 8 0x107 = some .clr := by decide

theorem witness_Acceptance : ∃ (s s' : State) (w : Word),
    hostMoves (.write 0x010 .four w) s ∧ s.busy = false ∧ hostMoves (.write 0x010 .four w) s' ∧ s'.busy = true :=
  ⟨hosted (.write 0x010 .four 0) State.reset, hosted (.write 0x010 .four 0) { State.reset with busy := true }, 0,
    by decide⟩

theorem witness_EveryCompletion :
    sequencerMoves (running .clr State.reset) ∧ decode (running .clr State.reset).pcmd = .ok .clr ∧
    sequencerMoves (running .enc State.reset) ∧ decode (running .enc State.reset).pcmd ≠ .ok .clr ∧
    sequencerMoves { State.reset with busy := true } ∧ decode State.reset.pcmd = .error .reservedOp := by decide

theorem witness_OnlyTheOutsideWorldStops :
    step { State.reset with inReset := true, turns := [.host (.read 0x000 .four)] } = .fault .hostDuringReset ∧
    step { State.reset with turns := [.freeElsewhere 0x10] } = .refused .crossAllocatorRelease := ⟨rfl, rfl⟩

theorem witness_NoStepChangesTheConfiguration : ∃ s t, step s = .next t := ⟨State.reset, State.reset, rfl⟩

theorem witness_HardwareReset : ∃ s1 s2 s3 : State,
    s1.turns.head? = some .assertReset ∧ s1.busy = true ∧
    (s2.inReset = true ∧ ∃ x, s2.turns.head? = some (.host x)) ∧
    (Inv s3 ∧ s3.inReset = true ∧ s3.turns.head? = some .deassertReset) :=
  ⟨{ running .enc (keyedState hello) with turns := [.assertReset] },
    { State.reset with inReset := true, turns := [.host (.read 0x000 .four)] },
    { State.reset with inReset := true, turns := [.deassertReset] }, rfl, rfl, ⟨rfl, _, rfl⟩,
    inv_of_checks (by decide), rfl, rfl⟩

theorem witness_EncCompletes : ∃ (s : State) (i : Nat) (sl : Slot) (text : List Byte),
    s.keylen = 8 ∧ s.mlen.toNat ≤ s.cfg.maxMsg ∧ LeastFree s i sl ∧
    text = encryptText (memRead .ibuf 0 s.mlen.toNat s) (deriveSchedule (be64 (memRead .keyb 0 8 s))) ∧
    text = helloHex :=
  ⟨keyedState hello, 0, Slot.initial, helloHex, by decide +kernel⟩

theorem witness_DecCompletes : ∃ (s : State) (i : Nat) (sl : Slot) (msg : List Byte),
    s.keylen = 8 ∧ s.mlen.toNat ≤ s.cfg.maxHex ∧ LeastFree s i sl ∧
    decryptText (memRead .ibuf 0 s.mlen.toNat s) (deriveSchedule (be64 (memRead .keyb 0 8 s))) = some msg ∧
    msg = hello :=
  ⟨keyedState helloHex, 0, Slot.initial, hello, by decide +kernel⟩

theorem witness_BoundaryFrame : ∃ (s t : State) (j : Nat),
    exec .enc s = .next t ∧ t.errcode = none ∧ freeSlot s ≠ some j ∧ freeSlot s = some 0 := by
  obtain ⟨t, h, ht⟩ := exists_next (o := exec .enc (keyedState hello)) (p := fun t => decide (t.errcode = none))
    (by decide)
  exact ⟨_, t, 1, h, of_decide_eq_true ht, by decide, by decide⟩

theorem witness_KeyedCommands : (∀ i ∈ [Instr.enc, .dec, .encb, .decb], i.keyed = true) ∧
    (keyedState hello).keylen = 8 ∧ State.reset.keylen ≠ 8 := by decide

theorem witness_FirstErrorKeyLength : Instr.enc.keyed = true ∧ State.reset.keylen ≠ 8 := by decide

theorem witness_FirstErrorEnc : ∃ s s' : State,
    (s.keylen = 8 ∧ s.mlen.toNat > s.cfg.maxMsg) ∧ (s'.keylen = 8 ∧ s'.mlen.toNat ≤ s'.cfg.maxMsg ∧ NoneFree s') :=
  ⟨{ keyedState [] with mlen := 256 }, { keyedState [] with mlen := 255, slots := fullSlots }, by decide⟩

theorem witness_FirstErrorDecTooLong : ∃ s : State, s.keylen = 8 ∧ s.mlen.toNat > s.cfg.maxHex :=
  ⟨{ keyedState [] with mlen := 513 }, by decide⟩

/-- The empty text, one of 5 characters, and one of 16 with a 'G'. -/
theorem witness_FirstErrorDecStructure : ∃ s s' s'' : State,
    (DecReady s ∧ s.mlen = 0) ∧ (DecReady s' ∧ s'.mlen.toNat % 16 ≠ 0) ∧
    (DecReady s'' ∧ ∃ ch ∈ memRead .ibuf 0 s''.mlen.toNat s'', ¬HexDigit ch) :=
  ⟨keyedState [], keyedState hello, keyedState (helloHex.set 15 0x47), by decide⟩

theorem witness_FirstErrorDecNoSlot : ∃ s : State, DecText s ∧ NoneFree s :=
  ⟨{ keyedState helloHex with slots := fullSlots }, by decide⟩

theorem witness_FirstErrorDecPadding : ∃ s : State, DecText s ∧ ¬NoneFree s ∧
    decryptText (memRead .ibuf 0 s.mlen.toNat s) (deriveSchedule (be64 (memRead .keyb 0 8 s))) = none :=
  ⟨keyedState badPadHex, by decide +kernel⟩

theorem witness_FirstErrorHandles :
    live State.reset State.reset.harg = false ∧ decode State.reset.pcmd = .error .reservedOp := by decide

/-- Each command that can raise an error, raising one. -/
theorem witness_ErrorsHaveNoPartialEffect :
    (∃ t, exec .enc State.reset = .next t ∧ t.errcode = some .invalidKeyLength) ∧
    (∃ t, exec .dec State.reset = .next t ∧ t.errcode = some .invalidKeyLength) ∧
    (∃ t, exec .encb State.reset = .next t ∧ t.errcode = some .invalidKeyLength) ∧
    (∃ t, exec .decb State.reset = .next t ∧ t.errcode = some .invalidKeyLength) ∧
    (∃ t, exec .sel State.reset = .next t ∧ t.errcode = some .useAfterRelease) ∧
    (∃ t, exec .rel State.reset = .next t ∧ t.errcode = some .doubleRelease) :=
  ⟨⟨_, rfl, rfl⟩, ⟨_, rfl, rfl⟩, ⟨_, rfl, rfl⟩, ⟨_, rfl, rfl⟩, ⟨_, rfl, rfl⟩, ⟨_, rfl, rfl⟩⟩

theorem witness_EncbDecbRules :
    (Memory.wf (keyedState []).dout ∧ (keyedState []).keylen = 8) ∧
    (Memory.wf State.reset.dout ∧ State.reset.keylen ≠ 8) := by decide

theorem witness_RawFrame : (∃ t, exec .encb (keyedState []) = .next t ∧ t.errcode = none) ∧
    (∃ t, exec .decb (keyedState []) = .next t ∧ t.errcode = none) := by
  refine ⟨?_, ?_⟩
  · obtain ⟨h, _⟩ | ⟨_, e⟩ := execEncb_cases (keyedState [])
    · exact absurd rfl h
    · exact ⟨_, e, rfl⟩
  · obtain ⟨h, _⟩ | ⟨_, e⟩ := execDecb_cases (keyedState [])
    · exact absurd rfl h
    · exact ⟨_, e, rfl⟩

theorem witness_SelRule :
    live selectedState selectedState.harg = true ∧ live State.reset State.reset.harg = false := by decide

theorem witness_RelRule : (∃ sl : Slot, selectedState.slots[handleSlot selectedState.harg]? = some sl ∧
      sl.state = .live ∧ sl.gen = handleGen selectedState.harg) ∧
    live State.reset State.reset.harg = false :=
  ⟨⟨_, rfl, rfl, by decide⟩, by decide⟩

theorem witness_HandleFrame : (∃ t, exec .sel selectedState = .next t) ∧ (∃ t, exec .rel selectedState = .next t) ∧
    live selectedState selectedState.harg = true ∧ (1 : Nat) ≠ handleSlot selectedState.harg := by
  refine ⟨?_, ?_, by decide, by decide⟩
  · obtain ⟨_, e⟩ | ⟨_, e⟩ := execSel_cases selectedState <;> exact ⟨_, e⟩
  · obtain ⟨_, e⟩ | ⟨_, e⟩ := execRel_cases selectedState <;> exact ⟨_, e⟩

theorem witness_ReleaseKills : (∃ t, exec .rel selectedState = .next t) ∧
    handleSlot 0x11 ≠ handleSlot selectedState.harg :=
  ⟨witness_HandleFrame.2.1, by decide⟩

theorem witness_NewHandles : ∃ s t : State,
    Inv s ∧ exec .enc s = .next t ∧ t.errcode = none ∧ live s 0x10 = true := by
  obtain ⟨t, h, ht⟩ := exists_next
    (o := exec .enc { selectedState with keylen := 8, mlen := 5 }) (p := fun t => decide (t.errcode = none))
    (by decide)
  exact ⟨_, t, inv_of_checks (by decide), h, of_decide_eq_true ht, by decide⟩

theorem witness_LiveHandles : Inv selectedState ∧ selectedState.slots.length = selectedState.cfg.numSlots ∧
    (0x0000000F : Word).extractLsb' 4 28 = 0 :=
  ⟨inv_of_checks (by decide), by decide⟩

/-- A LIVE slot that changes by each of the three ways. -/
theorem witness_LiveSlotsChange : ∃ (sl : Slot), selectedState.slots[0]? = some sl ∧ sl.state = .live ∧
    nextIs (step (running .rel selectedState)) (fun t => decide (t.slots[0]? ≠ some sl)) = true ∧
    nextIs (step (running .clr selectedState)) (fun t => decide (t.slots[0]? ≠ some sl)) = true ∧
    nextIs (step { selectedState with turns := [.assertReset] }) (fun t => decide (t.slots[0]? ≠ some sl)) = true :=
  ⟨_, rfl, rfl, by decide⟩

theorem witness_Generations : (1 : Gen) ≠ 0 ∧ (0xFFFFFFF : Gen) ≠ 0 ∧ 0 < 1 ∧ 1 < 2 ^ 28 - 1 := by decide

theorem witness_OnlySelSelects :
    (completes .rel (running .rel selectedState) ∧ selectedState.selv = true ∧
      selectedState.selh = selectedState.harg ∧ live selectedState selectedState.harg = true ∧
      nextIs (step (running .rel selectedState)) (fun _ => true) = true) ∧
    nextIs (step (running .sel { selectedState with selv := false })) (fun t => t.selv) = true ∧
    nextIs (step (running .clr selectedState)) (fun t => decide (t.selh ≠ selectedState.selh)) = true := by
  decide

theorem witness_BusyChanges :
    nextIs (step (hosted (.write 0x010 .four 1) State.reset)) (fun t => t.busy) = true ∧
    nextIs (step (running .clr State.reset)) (fun t => !t.busy) = true ∧
    nextIs (step { running .clr State.reset with turns := [.assertReset] }) (fun t => !t.busy) = true := by
  decide

theorem witness_DoneChanges :
    sequencerMoves (running .clr State.reset) ∧
    nextIs (step (running .clr State.reset)) (fun t => t.done) = true ∧
    nextIs (step (hosted (.write 0x010 .four 1) { State.reset with done := true })) (fun t => !t.done) = true ∧
    nextIs (step (hosted (.write 0x00C .four 2) { State.reset with done := true })) (fun t => !t.done) = true := by
  decide

theorem witness_WerrChanges :
    nextIs (step (hosted (.write 0x5FF .one 1) { State.reset with busy := true })) (fun t => t.werr) = true ∧
    nextIs (step (hosted (.write 0x00C .four 4) { State.reset with werr := true })) (fun t => !t.werr) = true ∧
    nextIs (step (running .clr { State.reset with werr := true })) (fun t => !t.werr) = true := by decide

/-- The clauses in their order, each with a step that goes on, and two that change ERRCODE. -/
theorem witness_ErrcodeChanges :
    (hostMoves (.write 0x010 .four 1) (hosted (.write 0x010 .four 1) State.reset) ∧
      nextIs (step (hosted (.write 0x010 .four 1) { State.reset with errcode := some .noFreeHandle })) (fun t =>
        decide (t.errcode ≠ some .noFreeHandle)) = true) ∧
    (completes .rel (running .rel State.reset) ∧
      nextIs (step (running .rel State.reset)) (fun t => decide (t.errcode ≠ State.reset.errcode)) = true) ∧
    (sequencerMoves { State.reset with busy := true } ∧ decode State.reset.pcmd = .error .reservedOp ∧
      nextIs (step { State.reset with busy := true }) (fun _ => true) = true) ∧
    nextIs (step { State.reset with turns := [.assertReset] }) (fun _ => true) = true := by
  decide

/-- The hypotheses of each clause, each with a step that goes on. -/
theorem witness_Interrupt :
    (sequencerMoves (running .clr State.reset) ∧ nextIs (step (running .clr State.reset)) (fun _ => true) = true) ∧
    (hostMoves (.write 0x00C .four 2) (hosted (.write 0x00C .four 2) State.reset) ∧ (2 : Word).getLsbD 1 = true) ∧
    (hostMoves (.write 0x010 .four 1) (hosted (.write 0x010 .four 1) State.reset) ∧ State.reset.busy = false) ∧
    ({ State.reset with turns := [.assertReset] } : State).turns.head? = some .assertReset := by decide

/-- Offsets at the edges of the legal and the illegal accesses (20_memory.md R72). -/
theorem witness_IllegalTransactions :
    (hostMoves (.read 0x02F .one) (hosted (.read 0x02F .one) State.reset) ∧ (0x02F : Offset).toNat < 0x030) ∧
    (hostMoves (.write 0x032 .four 0) (hosted (.write 0x032 .four 0) State.reset) ∧ (0x032 : Offset).toNat % 4 ≠ 0) ∧
    (hostMoves (.write 0x030 .one 0) (hosted (.write 0x030 .one 0) State.reset) ∧ 0x030 ≤ (0x030 : Offset).toNat) ∧
    (hostMoves (.read 0xFFC .four) (hosted (.read 0xFFC .four) State.reset) ∧ (0xFFC : Offset).toNat % 4 = 0) := by
  decide

theorem witness_ReadsWhileBusy : ∃ s : State,
    hostMoves (.read 0x00C .four) s ∧ s.busy = true ∧ legalAccess 0x00C .four = true ∧ Inv s ∧
    legalAccess 0x047 .one = true ∧ (0x047 : Offset).toNat ≤ 0x047 ∧ (0x800 : Offset).toNat = 0x800 :=
  ⟨hosted (.read 0x00C .four) { State.reset with busy := true }, by decide, rfl, by decide,
    inv_of_checks (by decide), by decide, by decide, rfl⟩

theorem witness_WritesWhileBusy : ([(0x010 : Offset), 0x01C, 0x030, 0x03C, 0x400, 0x5FC].all fun o =>
    decide (hostMoves (.write o .four 1) (hosted (.write o .four 1) { State.reset with busy := true }) ∧
      legalAccess o .four = true ∧ commandInput State.reset.cfg o.toNat)) = true := by decide

theorem witness_ByteWrites : ∃ s : State,
    Inv s ∧ s.busy = false ∧ hostMoves (.write 0x5FF .one 0xAB) s ∧ 0x030 ≤ (0x5FF : Offset).toNat :=
  ⟨hosted (.write 0x5FF .one 0xAB) (keyedState hello), inv_of_checks (by decide), rfl, by decide,
    by decide⟩

theorem witness_ControlRegisters : ([(0x000 : Offset), 0x004, 0x008, 0x00C, 0x010, 0x014, 0x018, 0x01C, 0x020, 0x024,
      0x028, 0x02C].all fun o =>
    decide (State.reset.busy = false ∧ hostMoves (.write o .four 7) (hosted (.write o .four 7) State.reset) ∧
      o.toNat < 0x030 ∧ o.toNat % 4 = 0)) = true := by decide

/-- The edges of the ranges: each line's two ends, the last byte of IBUF, and the NUL and beyond of a slot. -/
theorem witness_ByteReads :
    ([(0x030 : Offset), 0x037].all fun o => decide (0x030 ≤ o.toNat ∧ o.toNat ≤ 0x037)) = true ∧
    ([(0x038 : Offset), 0x03F].all fun o => decide (0x038 ≤ o.toNat ∧ o.toNat ≤ 0x03F)) = true ∧
    ([(0x040 : Offset), 0x047].all fun o => decide (0x040 ≤ o.toNat ∧ o.toNat ≤ 0x047)) = true ∧
    ([(0x048 : Offset), 0x3FF].all fun o => decide (0x048 ≤ o.toNat ∧ o.toNat ≤ 0x3FF)) = true ∧
    ([(0x400 : Offset), 0x5FF, 0x600, 0x7FF].all fun o => decide (0x400 ≤ o.toNat ∧ o.toNat ≤ 0x7FF)) = true ∧
    (0x5FF : Offset).toNat - 0x400 < State.reset.cfg.ibufBytes ∧
    ¬(0x600 : Offset).toNat - 0x400 < State.reset.cfg.ibufBytes ∧
    (selectedState.busy = false ∧ selectedState.selv = true ∧ live selectedState selectedState.selh = true ∧
      (0xA00 : Offset).toNat - 0x800 < selectedState.cfg.slotBytes) ∧
    ¬(0xA01 : Offset).toNat - 0x800 < selectedState.cfg.slotBytes ∧
    0x800 ≤ (0x800 : Offset).toNat ∧ State.reset.cfg.legal = true := by decide

/-- Each error code is STATUS's in some state, beside 0. -/
theorem witness_ErrorCodes :
    ([CmdError.invalidKeyLength, .inputTooLong, .malformedEncoding, .doubleRelease, .useAfterRelease, .illegalCommand,
      .noFreeHandle].map fun e => statusWord { State.reset with done := true, errcode := some e })
    = [0x12, 0x22, 0x32, 0x42, 0x52, 0x62, 0x72] := by decide

theorem witness_WordAccesses : (0x030 : Offset).toNat % 4 = 0 ∧ 0x030 ≤ (0x030 : Offset).toNat ∧
    (0xFFC : Offset).toNat % 4 = 0 ∧ 0x030 ≤ (0xFFC : Offset).toNat := by decide

theorem witness_KeyNeverRead : ∃ s t : State,
    (¬∃ i : Instr, i.keyed = true ∧ completes i s) ∧ step s = .next t ∧ hostMoves (.read 0x030 .four) s :=
  ⟨hosted (.read 0x030 .four) (keyedState hello), _, by rintro ⟨i, _, ⟨h, _⟩, _⟩; exact absurd h (by decide), rfl,
    by decide⟩

theorem witness_BytesAboveMlen : ∃ (s t : State) (m : Memory),
    (∀ a, a < s.mlen.toNat → Memory.read m a = Memory.read s.ibuf a) ∧ exec .enc s = .next t ∧ t.errcode = none ∧
    m ≠ s.ibuf := by
  obtain ⟨t, h, ht⟩ := exists_next (o := exec .enc (keyedState hello)) (p := fun t => decide (t.errcode = none))
    (by decide)
  exact ⟨_, t, Memory.ofBytes (hello ++ [0x21]), by decide, h, of_decide_eq_true ht, by decide⟩

/-- V-KS-3: keys that differ in parity bits only. -/
theorem witness_Parity :
    (∀ j, j < 64 → j % 8 ≠ 0 → (0x133457799BBCDFF1 : Key).getLsbD j = (0x123456789ABCDEF0 : Key).getLsbD j) ∧
    (0x133457799BBCDFF1 : Key) ≠ 0x123456789ABCDEF0 ∧ (keyedState []).keylen = 8 := by decide

/-- 42_formatter.md R174: "ABCDEFG" and one pad byte, and eight 08 bytes. -/
theorem witness_Unpad : ∀ t ∈ [[(0x41 : Byte), 0x42, 0x43, 0x44, 0x45, 0x46, 0x47, 0x01], List.replicate 8 0x08],
    8 ≤ t.length ∧ t.length % 8 = 0 ∧ (unpad t).isSome = true := by decide

/-- The example of 42_formatter.md R173, "180f8B04"; and bytes beside the three ranges that are no digits. -/
theorem witness_HexDecode :
    hexDecode [0x31, 0x38, 0x30, 0x66, 0x38, 0x42, 0x30, 0x34] = some [0x18, 0x0F, 0x8B, 0x04] ∧
    ([(0x2F : Byte), 0x3A, 0x40, 0x47, 0x60, 0x67, 0x00, 0x80].all fun ch => decide (¬HexDigit ch)) = true := by
  decide

theorem witness_DecryptOfEncrypt : ∃ (c : Config) (m : List Byte), c.legal = true ∧ m.length = c.maxMsg :=
  ⟨Config.reference, List.replicate 255 0x61, by decide +kernel⟩

theorem witness_DecReturns : ∃ (s : State) (m : List Byte),
    s.cfg.legal = true ∧ s.keylen = 8 ∧ m.length ≤ s.cfg.maxMsg ∧ LeastFree s 0 Slot.initial ∧
    s.mlen.toNat = (encryptText m (deriveSchedule (be64 (memRead .keyb 0 8 s)))).length ∧
    memRead .ibuf 0 s.mlen.toNat s = encryptText m (deriveSchedule (be64 (memRead .keyb 0 8 s))) :=
  ⟨keyedState helloHex, hello, by decide +kernel⟩

theorem witness_ResetInvariant : Config.legal { maxBlocks := 64, numSlots := 15 } = true ∧
    Config.reference.legal = true := by decide

theorem witness_InvariantStep : ∃ s t : State, Inv s ∧ step s = .next t ∧ t.selv = false ∧ s.selv = true := by
  obtain ⟨t, h, ht⟩ := exists_next (o := step (running .rel selectedState)) (p := fun t => !t.selv) (by decide)
  exact ⟨_, t, inv_of_checks (by decide), h, by simpa using ht, rfl⟩

theorem witness_BusyEnds : ∃ s : State, s.busy = true ∧ s.inReset = false ∧
    (∀ h, Turn.freeElsewhere h ∉ s.turns) ∧ s.turns.length = 2 :=
  ⟨{ running .encb (keyedState []) with turns := [r32 0x00C, .core] }, rfl, rfl, by intro h; simp [r32], rfl⟩

theorem witness_Wait : ∃ s : State, s.busy = true ∧ s.inReset = false ∧ s.turns = expandLine (.wait 2) ++ [] :=
  ⟨{ running .encb (keyedState []) with turns := expandLine (.wait 2) }, rfl, rfl, rfl⟩

theorem witness_KeyLine : ∃ s : State, Inv s ∧ s.busy = false ∧ s.inReset = false ∧
    s.turns = expandLine (.key key1) ++ [] :=
  ⟨{ State.reset with turns := expandLine (.key key1) }, inv_of_checks (by decide), rfl, rfl, rfl⟩

end Sys2Proof.Tests
end

section
/-! PROOFS. The move a step makes, named by the turn it takes; what every later proof about steps is split by. -/

namespace Sys2Proof.Machine

/-! ### The turn that is taken -/

/-- The turn the next step takes: the first one listed, or, where none is, the sequencer's (20_memory.md R85, R262). -/
def nextTurn (s : State) : Turn := s.turns.head?.getD .core

theorem nextTurn_eq_core_iff {s : State} : nextTurn s = .core ↔ s.turns = [] ∨ s.turns.head? = some .core := by
  cases hs : s.turns <;> simp [nextTurn, hs]

theorem nextTurn_eq_iff {s : State} {t : Turn} (ht : t ≠ .core) : nextTurn s = t ↔ s.turns.head? = some t := by
  cases hs : s.turns
  · simp [nextTurn, hs, ht.symm]
  · simp [nextTurn, hs]

theorem sequencerMoves_iff {s : State} :
    sequencerMoves s ↔ s.busy = true ∧ s.inReset = false ∧ nextTurn s = .core := by
  rw [nextTurn_eq_core_iff]

theorem hostMoves_iff {x : Xact} {s : State} : hostMoves x s ↔ s.inReset = false ∧ nextTurn s = .host x := by
  rw [nextTurn_eq_iff (by simp)]

theorem resetMoves_iff {s : State} : s.turns.head? = some .assertReset ↔ nextTurn s = .assertReset :=
  (nextTurn_eq_iff (by simp)).symm

theorem completes_iff {i : Instr} {s : State} :
    completes i s ↔ (s.busy = true ∧ s.inReset = false ∧ nextTurn s = .core) ∧ decode s.pcmd = .ok i := by
  rw [← sequencerMoves_iff]

/-! ### What a step can be -/

theorem State.pop_of_turns_eq_nil {s : State} (h : s.turns = []) : s.pop = s := by
  cases s
  cases h
  rfl

/-- The step is the move of the turn that is taken, the turn gone (20_memory.md R85). -/
theorem step_eq_takeTurn (s : State) : step s = takeTurn (nextTurn s) s.pop := by
  cases hs : s.turns with
  | nil => simp [step, nextTurn, hs, State.pop_of_turns_eq_nil hs, restTurn, takeTurn]
  | cons t rest => simp [step, nextTurn, hs, State.pop]

/-- Every way in which a step leads to a next state, one constructor per agent that moves (20_memory.md R85). -/
inductive StepsTo (s t : State) : Prop where
  /-- The sequencer completes the command in PCMD (60_exceptions.md R226). -/
  | completion (hb : s.busy = true) (hr : s.inReset = false) (hn : nextTurn s = .core) (h : completion s.pop = .next t)
  /-- The host performs a transaction (20_memory.md R71). -/
  | host (x : Xact) (hr : s.inReset = false) (hn : nextTurn s = .host x) (h : t = hostStep x s.pop)
  /-- The platform asserts reset (70_reset_and_hazards.md R250). -/
  | assertReset (hn : nextTurn s = .assertReset) (h : t = { resetBlock s.pop with inReset := true })
  /-- The platform deasserts reset. -/
  | deassertReset (hn : nextTurn s = .deassertReset) (h : t = { s.pop with inReset := false })
  /-- The sequencer has no step: the block is idle or held in reset (00_scope.md R10). -/
  | idle (hi : s.busy = false ∨ s.inReset = true) (hn : nextTurn s = .core) (h : t = s.pop)

theorem stepsTo_of_step {s t : State} (h : step s = .next t) : StepsTo s t := by
  rcases step_cases s with ⟨hm, e⟩ | ⟨x, hm, e⟩ | ⟨hn, e⟩ | ⟨hn, e⟩ | ⟨hi, hn, e⟩ | ⟨x, _, _, e⟩ | ⟨x, _, e⟩ <;>
    rw [e] at h
  · obtain ⟨hb, hr, hn⟩ := sequencerMoves_iff.1 hm
    exact .completion hb hr hn h
  · obtain ⟨hr, hn⟩ := hostMoves_iff.1 hm
    exact .host x hr hn (Host.Outcome.next.inj h).symm
  · exact .assertReset (resetMoves_iff.1 hn) (Host.Outcome.next.inj h).symm
  · exact .deassertReset ((nextTurn_eq_iff (by simp)).2 hn) (Host.Outcome.next.inj h).symm
  · exact .idle hi (nextTurn_eq_core_iff.2 hn) (Host.Outcome.next.inj h).symm
  · cases h
  · cases h

/-! ### The completion -/

theorem completion_of_ok {s : State} {i : Instr} (h : decode s.pcmd = .ok i) : completion s = exec i s := by
  simp [completion, h]

theorem completion_of_error {s : State} {e : DecodeError} (h : decode s.pcmd = .error e) :
    completion s = .next (finish (some .illegalCommand) s) := by
  simp [completion, h, execIllegal]

end Sys2Proof.Machine
end

section
/-! PROOFS. What the operations on the slot file, on handles and on texts keep and answer. -/

namespace Sys2Proof

/-- The ranges of 00_scope.md R5. -/
theorem Config.legal_iff {c : Config} :
    c.legal = true ↔ 1 ≤ c.maxBlocks ∧ c.maxBlocks ≤ 64 ∧ 1 ≤ c.numSlots ∧ c.numSlots ≤ 15 := by
  simp [Config.legal, and_assoc]

end Sys2Proof

namespace Sys2Proof.Machine

/-! ### Handles -/

@[simp] theorem handleGen_handleOf (g : Gen) (i : Nat) : handleGen (handleOf g i) = g :=
  BitVec.extractLsb'_append_eq_left

theorem handleSlot_handleOf (g : Gen) {i : Nat} (hi : i < 16) : handleSlot (handleOf g i) = i := by
  rw [handleSlot, handleOf, BitVec.extractLsb'_append_eq_right, BitVec.toNat_ofNat, Nat.mod_eq_of_lt hi]

/-- A handle is its slot and its generation (30_encoding.md R104). -/
theorem handle_ext {h h' : Word} (hs : handleSlot h = handleSlot h') (hg : handleGen h = handleGen h') : h = h' := by
  have hs' : h.extractLsb' 0 4 = h'.extractLsb' 0 4 := BitVec.eq_of_toNat_eq hs
  have hg' : h.extractLsb' 4 28 = h'.extractLsb' 4 28 := hg
  calc h = h.extractLsb' 4 28 ++ h.extractLsb' 0 4 :=
      (BitVec.extractLsb'_append_extractLsb' (w := 28) (len := 4)).symm
    _ = h'.extractLsb' 4 28 ++ h'.extractLsb' 0 4 := by rw [hg', hs']
    _ = h' := BitVec.extractLsb'_append_extractLsb' (w := 28) (len := 4)

theorem nextGen_ne_zero (g : Gen) : nextGen g ≠ 0 := by
  unfold nextGen
  split
  · decide
  · assumption

/-! ### Slots -/

theorem forall_mem_modify {α : Type} {p : α → Prop} {l : List α} {f : α → α} (i : Nat) (h : ∀ a ∈ l, p a)
    (hf : ∀ a ∈ l, p (f a)) : ∀ a ∈ l.modify i f, p a := by
  intro a ha
  obtain ⟨j, hj⟩ := List.mem_iff_getElem?.1 ha
  rw [List.getElem?_modify] at hj
  obtain ⟨b, hb, rfl⟩ := Option.map_eq_some_iff.1 hj
  have hb' := List.mem_of_getElem? hb
  split
  · exact hf b hb'
  · exact h b hb'

theorem SlotOk.initial {c : Config} (g : Gen) : SlotOk c { Slot.initial with gen := g } :=
  ⟨StoreOk.nil _, Nat.succ_pos _, fun _ => ⟨rfl, rfl⟩, nofun⟩

theorem SlotOk.released {c : Config} (sl : Slot) : SlotOk c sl.released :=
  ⟨StoreOk.nil _, Nat.succ_pos _, fun _ => ⟨rfl, rfl⟩, nofun⟩

/-- A result that leaves room for its NUL makes a slot as 42_formatter.md R179 describes it. -/
theorem SlotOk.allocated {c : Config} {text : List Byte} (sl : Slot) (hc : c.legal = true)
    (ht : text.length < c.slotBytes) : SlotOk c (Slot.allocated text sl) := by
  have hlen : (BitVec.ofNat 16 text.length).toNat = text.length := by
    have := Config.legal_iff.1 hc
    rw [BitVec.toNat_ofNat, Nat.mod_eq_of_lt]
    unfold Config.slotBytes at ht
    omega
  refine ⟨?_, ?_, nofun, fun _ => nextGen_ne_zero _⟩
  · rw [Slot.allocated, hlen]
    exact StoreOk.ofBytes le_rfl
  · rw [Slot.allocated, hlen]
    exact ht

/-- A handle live before a slot is modified is live after it, where it is of another slot. -/
theorem live_of_modify {s t : State} {i : Nat} {f : Slot → Slot} {h : Word} (ht : t.slots = s.slots.modify i f)
    (hi : i ≠ handleSlot h) : live t h = live s h := by
  rw [live, live, ht, List.getElem?_modify_ne _ _ hi]

/-- An allocation takes a slot that no live handle names (43_commands.md R200). -/
theorem freeSlot_ne_of_live {s : State} {i : Nat} {h : Word} (hf : freeSlot s = some i) (hl : live s h = true) :
    i ≠ handleSlot h := by
  rintro rfl
  obtain ⟨hi, hfree, -⟩ := freeSlot_some hf
  obtain ⟨sl, hsl, hlive, -⟩ := live_iff.1 hl
  rw [List.getElem?_eq_getElem hi] at hsl
  cases hsl
  rw [hfree] at hlive
  cases hlive

/-- Two live handles of one slot are one handle (10_state.md R47). -/
theorem eq_of_live_of_handleSlot_eq {s : State} {h h' : Word} (hl : live s h = true) (hl' : live s h' = true)
    (he : handleSlot h = handleSlot h') : h = h' := by
  obtain ⟨sl, hsl, -, hg⟩ := live_iff.1 hl
  obtain ⟨sl', hsl', -, hg'⟩ := live_iff.1 hl'
  rw [he, hsl'] at hsl
  cases hsl
  exact handle_ext he (hg.symm.trans hg')

/-! ### Lengths of results -/

@[simp] theorem length_textOperand (s : State) : (textOperand s).length = s.mlen.toNat := by
  simp [textOperand]

theorem length_encryptText (m : List Byte) (sk : Schedule) : (encryptText m sk).length = 16 * (m.length / 8 + 1) := by
  simp only [encryptText, length_hexEncode, length_join, List.length_map, length_blocks, length_pad]
  omega

theorem length_hexDecode {h c : List Byte} (hd : hexDecode h = some c) : h.length = 2 * c.length := by
  fun_induction hexDecode h generalizing c with
  | case1 => cases hd; rfl
  | case2 => cases hd
  | case3 a b rest x y out hr _ _ ih =>
    cases hd
    simp [ih hr]
    omega
  | case4 => cases hd

theorem length_decodeText {h c : List Byte} (hd : decodeText h = some c) : h.length = 2 * c.length := by
  unfold decodeText at hd
  split at hd
  · cases hd
  · exact length_hexDecode hd

theorem length_decryptText {h m : List Byte} {sk : Schedule} (hd : decryptText h sk = some m) :
    2 * m.length < h.length := by
  cases hc : decodeText h with
  | none => simp [decryptText, hc] at hd
  | some c =>
    rw [decryptText_of_decodeText sk hc] at hd
    have hm := (length_unpad hd).1
    rw [length_join, List.length_map, length_blocks] at hm
    have := length_decodeText hc
    omega

/-- A message that ENC accepts has a text that fits a slot with its NUL (00_scope.md R5). -/
theorem length_encryptText_lt {c : Config} {m : List Byte} (sk : Schedule) (hc : c.legal = true)
    (hm : m.length ≤ c.maxMsg) : (encryptText m sk).length < c.slotBytes := by
  have := Config.legal_iff.1 hc
  rw [length_encryptText]
  unfold Config.maxMsg at hm
  unfold Config.slotBytes
  omega

/-- A text that DEC accepts has a message that fits a slot with its NUL (00_scope.md R5). -/
theorem length_decryptText_lt {c : Config} {h m : List Byte} {sk : Schedule} (hh : h.length ≤ c.maxHex)
    (hd : decryptText h sk = some m) : m.length < c.slotBytes := by
  have := length_decryptText hd
  unfold Config.maxHex at hh
  unfold Config.slotBytes
  omega

end Sys2Proof.Machine
end

section
/-! PROOFS. What a transaction keeps, and what it does to STATUS. -/

namespace Sys2Proof.Machine

/-! ### What every transaction keeps -/

@[simp] theorem wbyte_cfg (o : Nat) (b : Byte) (s : State) : (wbyte o b s).cfg = s.cfg := by rw [(wbyte_same o b s).eq]
@[simp] theorem wbyte_inReset (o : Nat) (b : Byte) (s : State) : (wbyte o b s).inReset = s.inReset := by
  rw [(wbyte_same o b s).eq]
@[simp] theorem wword_cfg (a : Nat) (w : Word) (s : State) : (wword a w s).cfg = s.cfg := by rw [(wword_same a w s).eq]
@[simp] theorem wword_inReset (a : Nat) (w : Word) (s : State) : (wword a w s).inReset = s.inReset := by
  rw [(wword_same a w s).eq]

theorem ctrlWrite_keeps (o : Nat) (w : Word) (s : State) :
    (ctrlWrite o w s).cfg = s.cfg ∧ (ctrlWrite o w s).inReset = s.inReset := by
  rcases ctrlWrite_cases o w s with ⟨-, e⟩ | ⟨-, e⟩ | ⟨-, -, e⟩ | ⟨-, -, e⟩ | ⟨-, -, e⟩ | ⟨-, -, e⟩ | ⟨-, -, e⟩ |
    ⟨-, -, -, e⟩ <;> rw [e] <;> exact ⟨rfl, rfl⟩

theorem applyXact_keeps (x : Xact) (s : State) :
    (applyXact x s).cfg = s.cfg ∧ (applyXact x s).inReset = s.inReset := by
  rcases applyXact_cases x s with e | ⟨o, w, -, -, -, e⟩ | ⟨o, w, -, -, -, e⟩ | ⟨o, w, -, -, e⟩ <;> rw [e]
  · exact ⟨rfl, rfl⟩
  · exact ctrlWrite_keeps _ _ _
  · simp
  · simp

@[simp] theorem hostStep_cfg (x : Xact) (s : State) : (hostStep x s).cfg = s.cfg := (applyXact_keeps x s).1
@[simp] theorem hostStep_inReset (x : Xact) (s : State) : (hostStep x s).inReset = s.inReset := (applyXact_keeps x s).2
@[simp] theorem hostStep_busy (x : Xact) (s : State) : (hostStep x s).busy = (applyXact x s).busy := rfl
@[simp] theorem hostStep_done (x : Xact) (s : State) : (hostStep x s).done = (applyXact x s).done := rfl
@[simp] theorem hostStep_werr (x : Xact) (s : State) : (hostStep x s).werr = (applyXact x s).werr := rfl
@[simp] theorem hostStep_errcode (x : Xact) (s : State) : (hostStep x s).errcode = (applyXact x s).errcode := rfl

/-! ### STATUS -/

/-- The ranges of command inputs outside the control region start and end at multiples of 4 (20_memory.md R78). -/
theorem commandInput_add {c : Config} {a i : Nat} (ha : a % 4 = 0) (h : 0x030 ≤ a) (hi : i < 4) :
    commandInput c (a + i) ↔ commandInput c a := by
  unfold commandInput Config.ibufBytes
  omega

/-- A write of four bytes while busy is dropped or ignored as its first byte is (20_memory.md R73, R78). -/
theorem wword_busy {a : Nat} {s : State} (w : Word) (ha : a % 4 = 0) (h : 0x030 ≤ a) (hb : s.busy = true) :
    wword a w s = if commandInput s.cfg a then dropWrite s else s := by
  have hbyte : ∀ u : State, u.busy = true → ∀ i < 4, ∀ b,
      wbyte (a + i) b u = if commandInput u.cfg a then dropWrite u else u := fun u hu i hi b => by
    rw [wbyte_busy b (by omega) hu]
    simp only [commandInput_add ha h hi]
  rw [wword, wbyte_busy _ h hb]
  by_cases hc : commandInput s.cfg a
  · have hd : ∀ i < 4, ∀ b, wbyte (a + i) b (dropWrite s) = dropWrite s := fun i hi b =>
      (hbyte (dropWrite s) hb i hi b).trans (if_pos hc)
    rw [if_pos hc, hd 1 (by omega), hd 2 (by omega), hd 3 (by omega)]
  · have hs : ∀ i < 4, ∀ b, wbyte (a + i) b s = s := fun i hi b => (hbyte _ hb i hi b).trans (if_neg hc)
    rw [if_neg hc, hs 1 (by omega), hs 2 (by omega), hs 3 (by omega)]

/-- Two states with one STATUS (10_state.md R25). -/
structure SameStatus (s t : State) : Prop where
  busy    : t.busy = s.busy
  done    : t.done = s.done
  werr    : t.werr = s.werr
  errcode : t.errcode = s.errcode

theorem SameStatus.refl (s : State) : SameStatus s s := ⟨rfl, rfl, rfl, rfl⟩

/-- While idle, writes of bytes leave STATUS (20_memory.md R75). -/
theorem wbyte_sameStatus {o : Nat} {b : Byte} {s t : State} (hb : t.busy = false) (h : SameStatus s t) :
    SameStatus s (wbyte o b t) := by
  have e := (wbyte_same o b t).eq
  exact ⟨(congrArg State.busy e).trans h.busy, (congrArg State.done e).trans h.done, (wbyte_werr hb).trans h.werr,
    (congrArg State.errcode e).trans h.errcode⟩

theorem wword_sameStatus {a : Nat} {w : Word} {s : State} (hb : s.busy = false) : SameStatus s (wword a w s) := by
  have step : ∀ {o b t}, SameStatus s t → SameStatus s (wbyte o b t) := fun h =>
    wbyte_sameStatus (h.busy.trans hb) h
  exact step (step (step (step (SameStatus.refl s))))

/-- Everything a transaction can do to STATUS: it accepts a command (43_commands.md R190), it clears bits (10_state.md
R25), it is dropped (20_memory.md R78), or it is none of these and leaves STATUS. -/
inductive XactStatus (x : Xact) (s : State) : Prop where
  | accept (w : Word) (hx : x = .write 0x010 .four w) (hb : s.busy = false) (h : applyXact x s = accept w s)
  | clear (w : Word) (hx : x = .write 0x00C .four w) (h : applyXact x s = writeStatus w s)
  | dropped (o : Offset) (sz : Size) (w : Word) (hx : x = .write o sz w) (hl : legalAccess o sz = true)
      (hi : commandInput s.cfg o.toNat) (hb : s.busy = true) (h : applyXact x s = dropWrite s)
  | keeps (ha : ¬(s.busy = false ∧ ∃ w, x = .write 0x010 .four w)) (hc : ∀ w, x ≠ .write 0x00C .four w)
      (hd : ¬(s.busy = true ∧ ∃ o sz w, x = .write o sz w ∧ legalAccess o sz = true ∧ commandInput s.cfg o.toNat))
      (h : SameStatus s (applyXact x s))

/-- A write that leaves STATUS: illegal, or at an offset none of the other cases is about. -/
theorem XactStatus.of_write {o : Offset} {sz : Size} {w : Word} {s : State}
    (hx : legalAccess o sz = true → o ≠ 0x00C ∧ (commandInput s.cfg o.toNat → s.busy = false ∧ o ≠ 0x010))
    (h : SameStatus s (applyXact (.write o sz w) s)) : XactStatus (.write o sz w) s := by
  refine .keeps ?_ ?_ ?_ h
  · rintro ⟨-, _, ⟨⟩⟩
    exact ((hx rfl).2 (.inl rfl)).2 rfl
  · rintro _ ⟨⟩
    exact (hx rfl).1 rfl
  · rintro ⟨hb, _, _, _, ⟨⟩, hl, hi⟩
    exact absurd ((hx hl).2 hi).1 (by simp [hb])

theorem applyXact_of_legal {o : Offset} {sz : Size} {w : Word} {s : State} (hl : legalAccess o sz = true) :
    applyXact (.write o sz w) s = writeData o w s sz := by
  simp [applyXact, hl]

theorem xactStatus_ctrl {o : Offset} (w : Word) (s : State) (hl : legalAccess o .four = true) (ho : o.toNat < 0x030) :
    XactStatus (.write o .four w) s := by
  have hx : applyXact (.write o .four w) s = ctrlWrite o.toNat w s := by simp [applyXact_of_legal hl, writeData, ho]
  have hother : SameStatus s (ctrlWrite o.toNat w s) → o ≠ 0x00C →
      (commandInput s.cfg o.toNat → s.busy = false ∧ o ≠ 0x010) → XactStatus (.write o .four w) s := by
    intro hs h1 h2
    exact .of_write (fun _ => ⟨h1, h2⟩) (hx ▸ hs)
  rcases ctrlWrite_cases o.toNat w s with ⟨h, e⟩ | ⟨h, e⟩ | ⟨h, hb, e⟩ | ⟨h, hb, e⟩ | ⟨h, hb, e⟩ | ⟨h, hb, e⟩ |
    ⟨h, hb, e⟩ | ⟨h1, h2, h3, e⟩
  · exact hother (e ▸ ⟨rfl, rfl, rfl, rfl⟩) (by bv_omega) (by unfold commandInput; omega)
  · obtain rfl : o = 0x00C := BitVec.eq_of_toNat_eq h
    exact .clear w rfl (hx.trans e)
  · exact .dropped o .four w rfl hl (by unfold commandInput; omega) hb (hx.trans e)
  · obtain rfl : o = 0x010 := BitVec.eq_of_toNat_eq h
    exact .accept w rfl hb (hx.trans e)
  · exact hother (e ▸ ⟨rfl, rfl, rfl, rfl⟩) (by bv_omega) fun _ => ⟨hb, by bv_omega⟩
  · exact hother (e ▸ ⟨rfl, rfl, rfl, rfl⟩) (by bv_omega) fun _ => ⟨hb, by bv_omega⟩
  · exact hother (e ▸ ⟨rfl, rfl, rfl, rfl⟩) (by bv_omega) fun _ => ⟨hb, by bv_omega⟩
  · exact hother (e.symm ▸ .refl s) (by bv_omega) (by unfold commandInput; omega)

/-- A legal write outside the control region: dropped, or no writer of STATUS (20_memory.md R75, R78). -/
theorem xactStatus_bytes {o : Offset} {sz : Size} (w : Word) (s : State) (hl : legalAccess o sz = true)
    (ho : 0x030 ≤ o.toNat)
    (hb : s.busy = true → writeData o w s sz = if commandInput s.cfg o.toNat then dropWrite s else s)
    (hi : s.busy = false → SameStatus s (writeData o w s sz)) : XactStatus (.write o sz w) s := by
  have hx := applyXact_of_legal (w := w) (s := s) hl
  have h1 : o ≠ 0x00C := by bv_omega
  have h2 : o ≠ 0x010 := by bv_omega
  cases hbs : s.busy with
  | false => exact .of_write (fun _ => ⟨h1, fun _ => ⟨hbs, h2⟩⟩) (hx ▸ hi hbs)
  | true =>
    by_cases hc : commandInput s.cfg o.toNat
    · exact .dropped o sz w rfl hl hc hbs (by rw [hx, hb hbs, if_pos hc])
    · have hs : applyXact (.write o sz w) s = s := by rw [hx, hb hbs, if_neg hc]
      exact .of_write (fun _ => ⟨h1, fun h => absurd h hc⟩) (hs.symm ▸ .refl s)

theorem xactStatus (x : Xact) (s : State) : XactStatus x s := by
  cases x with
  | read o sz => exact .keeps (by simp) (by simp) (by simp) (.refl s)
  | write o sz w =>
    by_cases hl : legalAccess o sz = true
    · cases sz with
      | two => cases hl
      | one =>
        have ho : 0x030 ≤ o.toNat := by simpa [legalAccess] using hl
        exact xactStatus_bytes w s hl ho (fun hb => wbyte_busy _ ho hb) fun hb => wbyte_sameStatus hb (.refl s)
      | four =>
        have ha : o.toNat % 4 = 0 := by simpa [legalAccess] using hl
        by_cases ho : o.toNat < 0x030
        · exact xactStatus_ctrl w s hl ho
        · have hw : writeData o w s .four = wword o.toNat w s := if_neg ho
          exact xactStatus_bytes w s hl (by omega) (fun hb => hw.trans (wword_busy w ha (by omega) hb))
            fun hb => hw ▸ wword_sameStatus hb
    · exact .of_write (fun h => absurd h hl) (by simpa [applyXact, hl] using SameStatus.refl s)

/-- STATUS is no input of a command (20_memory.md R78). -/
theorem ne_status_of_commandInput {c : Config} {o : Offset} {sz : Size} {w : Word} {x : Xact} (hx : x = .write o sz w)
    (hi : commandInput c o.toNat) (w' : Word) : x ≠ .write 0x00C .four w' := by
  rintro rfl
  cases hx
  unfold commandInput at hi
  simp at hi

theorem applyXact_busy (x : Xact) (s : State) :
    (applyXact x s).busy = true ↔ s.busy = true ∨ ∃ w, x = .write 0x010 .four w := by
  cases xactStatus x s with
  | accept w hx hb h => exact iff_of_true (by rw [h]; rfl) (.inr ⟨w, hx⟩)
  | clear w hx h => rw [h]; simp [hx]
  | dropped o sz w hx hl hi hb h => rw [h]; simp [hb]
  | keeps ha hc hd h =>
    rw [h.busy]
    refine ⟨.inl, fun hor => ?_⟩
    by_contra hb
    exact ha ⟨by simpa using hb, hor.resolve_left hb⟩

theorem applyXact_done (x : Xact) (s : State) :
    (applyXact x s).done = false ↔ s.done = false ∨ (s.busy = false ∧ ∃ w, x = .write 0x010 .four w) ∨
      ∃ w : Word, x = .write 0x00C .four w ∧ w.getLsbD 1 = true := by
  cases xactStatus x s with
  | accept w hx hb h => exact iff_of_true (by rw [h]; rfl) (.inr (.inl ⟨hb, w, hx⟩))
  | clear w hx h => rw [h]; simp [hx, imp_iff_not_or]
  | dropped o sz w hx hl hi hb h =>
    rw [h]
    simp only [ne_status_of_commandInput hx hi, hb]
    simp
  | keeps ha hc hd h =>
    rw [h.done]
    simp only [hc, ha]
    simp

theorem applyXact_sets_werr (x : Xact) {s : State} (hs : s.werr = false) :
    (applyXact x s).werr = true ↔
      s.busy = true ∧ ∃ o sz w, x = .write o sz w ∧ legalAccess o sz = true ∧ commandInput s.cfg o.toNat := by
  cases xactStatus x s with
  | accept w hx hb h => rw [h]; simp [hs, hb]
  | clear w hx h =>
    have hd : ¬∃ o sz w, x = .write o sz w ∧ legalAccess o sz = true ∧ commandInput s.cfg o.toNat := by
      rintro ⟨o, sz, w', hx', -, hi⟩
      exact ne_status_of_commandInput hx' hi w hx
    exact iff_of_false (by rw [h]; simp [hs]) fun hd' => hd hd'.2
  | dropped o sz w hx hl hi hb h => exact iff_of_true (by rw [h]; rfl) ⟨hb, o, sz, w, hx, hl, hi⟩
  | keeps ha hc hd h => exact iff_of_false (by simp [h.werr, hs]) hd

theorem applyXact_clears_werr (x : Xact) {s : State} (hs : s.werr = true) :
    (applyXact x s).werr = false ↔ ∃ w : Word, x = .write 0x00C .four w ∧ w.getLsbD 2 = true := by
  cases xactStatus x s with
  | accept w hx hb h => rw [h]; simp [hs, hx]
  | clear w hx h => rw [h]; simp [hs, hx]
  | dropped o sz w hx hl hi hb h =>
    rw [h]
    simp only [ne_status_of_commandInput hx hi]
    simp
  | keeps ha hc hd h =>
    rw [h.werr]
    simp only [hc]
    simp [hs]

/-- Acceptance leaves ERRCODE 0 (43_commands.md R190). -/
theorem applyXact_errcode_of_accept {w : Word} {s : State} (hb : s.busy = false) :
    (applyXact (.write 0x010 .four w) s).errcode = none :=
  calc (applyXact (.write 0x010 .four w) s).errcode = (ctrlWrite 0x010 w s).errcode := rfl
    _ = none := by simp [ctrlWrite, hb]

theorem accepts_of_errcode_ne {x : Xact} {s : State} (hne : (applyXact x s).errcode ≠ s.errcode) :
    s.busy = false ∧ ∃ w, x = .write 0x010 .four w := by
  cases xactStatus x s with
  | accept w hx hb h => exact ⟨hb, w, hx⟩
  | clear w hx h => exact absurd (by rw [h]; rfl) hne
  | dropped o sz w hx hl hi hb h => exact absurd (by rw [h]; rfl) hne
  | keeps ha hc hd h => exact absurd h.errcode hne

end Sys2Proof.Machine
end

section
/-! PROOFS. The invariant: it holds after reset, and each operation of the machine keeps it. Outside reset the clause
about the reset input holds of nothing, so each operation of a running block has the hypothesis that reset is not
asserted. -/

namespace Sys2Proof.Machine

/-! ### Reset -/

theorem Inv.resetOf {c : Config} (hc : c.legal = true) : Inv (State.resetOf c) where
  cfg := hc
  keyb := StoreOk.nil _
  din := StoreOk.nil _
  dout := StoreOk.nil _
  ibuf := StoreOk.nil _
  count := List.length_replicate
  slots _ hsl := List.eq_of_mem_replicate hsl ▸ SlotOk.initial 0
  selected := nofun
  engine := rfl
  busy := nofun
  rlen := Nat.succ_pos _
  rhandle := .inl rfl
  reset := nofun

/-- Asserting reset (70_reset_and_hazards.md R250). -/
theorem Inv.assertReset {s : State} (h : Inv s) : Inv { resetBlock s with inReset := true } :=
  { Inv.resetOf h.cfg with reset := fun _ => rfl }

theorem Inv.deassertReset {s : State} (h : Inv s) : Inv { s with inReset := false } :=
  { h with reset := nofun }

theorem Inv.pop {s : State} (h : Inv s) : Inv s.pop :=
  { h with reset := fun hr => congrArg State.pop (h.reset hr) }

/-! ### Host transactions -/

section
variable {s : State} (h : Inv s) (hr : s.inReset = false)
include h hr

theorem Inv.wbyte (o : Nat) (b : Byte) : Inv (wbyte o b s) := by
  rcases wbyte_cases o b s with ⟨-, e⟩ | e | ⟨-, h1, h2, e⟩ | ⟨-, h1, h2, e⟩ | ⟨-, h1, h2, e⟩ <;> rw [e]
  · exact { h with reset := by simp [hr] }
  · exact h
  · exact { h with keyb := h.keyb.writeBytes (by simp; omega), reset := by simp [hr] }
  · exact { h with din := h.din.writeBytes (by simp; omega), reset := by simp [hr] }
  · exact { h with ibuf := h.ibuf.writeBytes (by simp; omega), reset := by simp [hr] }

theorem Inv.ctrlWrite (o : Nat) (w : Word) : Inv (ctrlWrite o w s) := by
  rcases ctrlWrite_cases o w s with ⟨-, e⟩ | ⟨-, e⟩ | ⟨-, -, e⟩ | ⟨-, hb, e⟩ | ⟨-, -, e⟩ | ⟨-, -, e⟩ | ⟨-, -, e⟩ |
    ⟨-, -, -, e⟩ <;> rw [e]
  · exact { h with reset := by simp [hr] }
  · refine { h with busy := fun hb => ?_, reset := by simp [hr] }
    obtain ⟨hd, he⟩ := h.busy hb
    exact ⟨by simp [hd], he⟩
  · exact { h with reset := by simp [hr] }
  · exact { h with busy := fun _ => ⟨rfl, rfl⟩, reset := by simp [hr] }
  · exact { h with reset := by simp [hr] }
  · exact { h with reset := by simp [hr] }
  · exact { h with reset := by simp [hr] }
  · exact h

theorem Inv.wword (a : Nat) (w : Word) : Inv (wword a w s) :=
  (((h.wbyte hr _ _).wbyte (by simp [hr]) _ _).wbyte (by simp [hr]) _ _).wbyte (by simp [hr]) _ _

theorem Inv.applyXact (x : Xact) : Inv (applyXact x s) := by
  rcases applyXact_cases x s with e | ⟨o, w, -, -, -, e⟩ | ⟨o, w, -, -, -, e⟩ | ⟨o, w, -, -, e⟩ <;> rw [e]
  · exact h
  · exact h.ctrlWrite hr _ _
  · exact h.wword hr _ _
  · exact h.wbyte hr _ _

theorem Inv.hostStep (x : Xact) : Inv (hostStep x s) :=
  { h.applyXact hr x with reset := by simp [hr] }

/-! ### Completions -/

theorem Inv.finish (e : Option CmdError) : Inv (finish e s) :=
  { h with busy := nofun, reset := by simp [hr] }

theorem Inv.consumeKey : Inv (consumeKey s) :=
  { h with keyb := StoreOk.nil _, engine := rfl, reset := by simp [hr] }

/-- The end of a keyed command (43_commands.md R191). -/
theorem Inv.keyedEnd (e : Option CmdError) : Inv (keyedEnd e s) :=
  (h.consumeKey hr).finish (by simpa using hr) e

theorem Inv.clearResult : Inv (clearResult s) :=
  { h with rlen := Nat.succ_pos _, rhandle := .inl rfl, reset := by simp [hr] }

theorem Inv.clearDout : Inv (clearDout s) :=
  { h with dout := StoreOk.nil _, reset := by simp [hr] }

/-- The result of a raw transform, a block (43_commands.md R194, R195). -/
theorem Inv.writeDout (x : Block) : Inv (memWrite .dout 0 (bytes8 x) s) :=
  { h with dout := h.dout.writeBytes (by simp), reset := by simp [hr] }

/-- The result of ENC or DEC in the slot found free (43_commands.md R200). -/
theorem Inv.storeResult {i : Nat} {text : List Byte} (hf : freeSlot s = some i)
    (ht : text.length < s.cfg.slotBytes) : Inv (storeResult i text s) := by
  obtain ⟨hi, -, -⟩ := freeSlot_some hf
  obtain ⟨-, -, -, hn⟩ := Config.legal_iff.1 h.cfg
  have hcount := h.count
  refine { h with count := ?_, slots := ?_, selected := fun hv => ?_, rlen := ?_, rhandle := .inr ⟨?_, ?_⟩,
                  reset := by simp [hr] }
  · simpa using hcount
  · exact forall_mem_modify i h.slots fun sl _ => SlotOk.allocated sl h.cfg ht
  · have hl := h.selected hv
    exact (live_of_modify rfl (freeSlot_ne_of_live hf hl)).trans hl
  · rw [storeResult_rlen, BitVec.toNat_ofNat]
    exact (Nat.mod_le _ _).trans_lt ht
  · rw [storeResult_rhandle, allocHandle, handleGen_handleOf]
    exact nextGen_ne_zero _
  · rw [storeResult_rhandle, allocHandle, handleSlot_handleOf _ (by omega), storeResult_cfg]
    omega

/-- A successful SEL (43_commands.md R196). -/
theorem Inv.select (hl : live s s.harg = true) : Inv { s with selv := true, selh := s.harg } :=
  { h with selected := fun _ => hl, reset := by simp [hr] }

/-- A failed SEL. -/
theorem Inv.unselect : Inv { s with selv := false } :=
  { h with selected := nofun, reset := by simp [hr] }

/-- A successful REL: a selection that stays valid is of another slot (43_commands.md R197). -/
theorem Inv.release (hl : live s s.harg = true) :
    Inv (deselect s.harg (releaseSlot (handleSlot s.harg) s)) := by
  refine { h with count := ?_, slots := ?_, selected := fun hv => ?_, reset := by simp [hr] }
  · simpa using h.count
  · exact forall_mem_modify _ h.slots fun sl _ => SlotOk.released sl
  · obtain ⟨hv, hne⟩ := Bool.and_eq_true_iff.1 hv
    have hl' := h.selected hv
    have hslot : handleSlot s.harg ≠ handleSlot s.selh := fun he =>
      of_decide_eq_true hne (eq_of_live_of_handleSlot_eq hl hl' he).symm
    exact (live_of_modify rfl hslot).trans hl'

/-- CLR (43_commands.md R198). -/
theorem Inv.clearBlock : Inv (clearBlock s) := by
  refine { Inv.resetOf h.cfg with count := ?_, slots := ?_, selected := nofun, reset := by simp [hr] }
  · simpa using h.count
  · intro sl hsl
    obtain ⟨sl', -, rfl⟩ := List.mem_map.1 hsl
    exact SlotOk.initial _

/-- Every command keeps the invariant. -/
theorem Inv.exec {t : State} (i : Instr) (ht : exec i s = .next t) : Inv t := by
  have hres : ∀ e, Inv (Machine.keyedEnd (some e) (Machine.clearResult s)) := fun e => (h.clearResult hr).keyedEnd hr _
  have hdout : ∀ e, Inv (Machine.keyedEnd (some e) (Machine.clearDout s)) := fun e => (h.clearDout hr).keyedEnd hr _
  cases i with
  | enc =>
    rcases execEnc_cases s with ⟨-, e⟩ | ⟨-, -, e⟩ | ⟨-, -, -, e⟩ | ⟨i, -, hm, hf, e⟩ <;> cases e.symm.trans ht
    · exact hres _
    · exact hres _
    · exact hres _
    · refine (h.storeResult hr hf ?_).keyedEnd hr _
      exact length_encryptText_lt _ h.cfg (by simpa using hm)
  | dec =>
    rcases execDec_cases s with ⟨-, e⟩ | ⟨-, -, e⟩ | ⟨-, -, -, e⟩ | ⟨c, -, -, -, -, e⟩ | ⟨c, i, -, -, -, -, -, e⟩ |
      ⟨c, i, m, -, hm, -, hf, hd, e⟩ <;> cases e.symm.trans ht
    · exact hres _
    · exact hres _
    · exact hres _
    · exact hres _
    · exact hres _
    · exact (h.storeResult hr hf (length_decryptText_lt (by simpa using hm) hd)).keyedEnd hr _
  | encb =>
    rcases execEncb_cases s with ⟨-, e⟩ | ⟨-, e⟩ <;> cases e.symm.trans ht
    · exact hdout _
    · exact (h.writeDout hr _).keyedEnd hr _
  | decb =>
    rcases execDecb_cases s with ⟨-, e⟩ | ⟨-, e⟩ <;> cases e.symm.trans ht
    · exact hdout _
    · exact (h.writeDout hr _).keyedEnd hr _
  | sel =>
    rcases execSel_cases s with ⟨hl, e⟩ | ⟨-, e⟩ <;> cases e.symm.trans ht
    · exact (h.select hr hl).finish hr _
    · exact (h.unselect hr).finish hr _
  | rel =>
    rcases execRel_cases s with ⟨hl, e⟩ | ⟨-, e⟩ <;> cases e.symm.trans ht
    · exact (h.release hr hl).finish hr _
    · exact h.finish hr _
  | clr =>
    cases (execClr_eq s).symm.trans ht
    exact (h.clearBlock hr).finish hr _

/-- Every completion keeps the invariant, an illegal word's too (43_commands.md R199). -/
theorem Inv.completion {t : State} (ht : completion s = .next t) : Inv t := by
  cases hd : decode s.pcmd with
  | ok i => exact h.exec hr i (completion_of_ok hd ▸ ht)
  | error e =>
    cases (completion_of_error hd).symm.trans ht
    exact h.finish hr _

end

/-! ### The step -/

theorem Inv.step {s t : State} (h : Inv s) (ht : step s = .next t) : Inv t := by
  cases stepsTo_of_step ht with
  | completion hb hr hn ht => exact h.pop.completion hr ht
  | host x hr hn ht => exact ht ▸ h.pop.hostStep hr x
  | assertReset hn ht => exact ht ▸ h.pop.assertReset
  | deassertReset hn ht => exact ht ▸ h.pop.deassertReset
  | idle hi hn ht => exact ht ▸ h.pop

/-- Settles O57: each agent's move keeps the invariant. -/
theorem everyStepKeepsTheInvariant : Obligations.EveryStepKeepsTheInvariant := fun _ _ h ht => h.step ht

/-- Settles O56, for every legal configuration and the reference one. -/
theorem resetMeetsTheInvariant : Obligations.ResetMeetsTheInvariant :=
  ⟨fun _ hc => Inv.resetOf hc, Inv.resetOf (by decide)⟩

end Sys2Proof.Machine
end

section
/-! PROOFS. What every completion does: it ends the command with the first error of 60_exceptions.md R223, and keeps
what no command writes. -/

namespace Sys2Proof.Machine

/-! ### The first error, in the model's own terms -/

theorem freeSlot_eq_none_iff {s : State} : freeSlot s = none ↔ NoneFree s := by
  refine ⟨freeSlot_none, fun h => List.findIdx?_eq_none_iff.2 fun sl hsl => ?_⟩
  simp [h sl hsl]

/-- A text of even length does not decode exactly where it has an invalid character (42_formatter.md R173). -/
theorem hexDecode_eq_none_iff {h : List Byte} (he : h.length % 2 = 0) :
    hexDecode h = none ↔ ∃ ch ∈ h, hexVal ch = none := by
  fun_induction hexDecode h with
  | case1 => simp
  | case2 => simp at he
  | case3 a b rest x y out hr hx hy ih =>
    have hrest := ih (by simp only [List.length_cons] at he; omega)
    simp [hx, hy, ← hrest, hr]
  | case4 a b rest h ih =>
    have hrest := ih (by simp only [List.length_cons] at he; omega)
    simp only [List.exists_mem_cons_iff, ← hrest, true_iff]
    by_contra! hn
    obtain ⟨ha, hb, hr⟩ := hn
    obtain ⟨x, hx⟩ := Option.ne_none_iff_exists'.1 ha
    obtain ⟨y, hy⟩ := Option.ne_none_iff_exists'.1 hb
    obtain ⟨out, ho⟩ := Option.ne_none_iff_exists'.1 hr
    exact h x y out hx hy ho

theorem decodeText_eq_none_iff (s : State) :
    decodeText (textOperand s) = none ↔
      s.mlen = 0 ∨ s.mlen.toNat % 16 ≠ 0 ∨ ∃ ch ∈ memRead .ibuf 0 s.mlen.toNat s, ¬HexDigit ch := by
  have h0 : s.mlen = 0 ↔ s.mlen.toNat = 0 := BitVec.toNat_eq
  rw [decodeText, length_textOperand, h0]
  by_cases h : s.mlen.toNat = 0 ∨ s.mlen.toNat % 16 ≠ 0
  · rw [if_pos h]; tauto
  · rw [if_neg h, hexDecode_eq_none_iff (by rw [length_textOperand]; omega), textOperand, ← or_assoc, or_iff_right h]
    simp only [hexVal_eq_none]

theorem firstError_enc (s : State) : firstError .enc s =
    if s.keylen ≠ 8 then some .invalidKeyLength
    else if s.mlen.toNat > s.cfg.maxMsg then some .inputTooLong
    else if freeSlot s = none then some .noFreeHandle
    else none := by
  simp only [firstError, freeSlot_eq_none_iff]

theorem firstError_dec (s : State) : firstError .dec s =
    if s.keylen ≠ 8 then some .invalidKeyLength
    else if s.mlen.toNat > s.cfg.maxHex then some .inputTooLong
    else if decodeText (textOperand s) = none then some .malformedEncoding
    else if freeSlot s = none then some .noFreeHandle
    else if decryptText (textOperand s) (deriveSchedule (keyOperand s)) = none then some .malformedEncoding
    else none := by
  simp only [firstError, freeSlot_eq_none_iff, decodeText_eq_none_iff]
  rfl

/-! ### The end of a command -/

/-- What is common to the ends of all commands with ERRCODE `e` (60_exceptions.md R226). -/
structure CommandEnd (e : Option CmdError) (s t : State) : Prop where
  cfg     : t.cfg = s.cfg
  inReset : t.inReset = s.inReset
  busy    : t.busy = false
  done    : t.done = true
  errcode : t.errcode = e

/-- Every command ends, and with the first error of its line in 60_exceptions.md R223. -/
theorem exec_ends (i : Instr) (s : State) :
    ∃ t, exec i s = .next t ∧ CommandEnd (firstError i s) s t ∧ (i ≠ .clr → t.werr = s.werr) := by
  cases i with
  | enc =>
    rcases execEnc_cases s with ⟨hk, e⟩ | ⟨hk, hm, e⟩ | ⟨hk, hm, hf, e⟩ | ⟨i, hk, hm, hf, e⟩
    · exact ⟨_, e, ⟨rfl, rfl, rfl, rfl, (firstError_keylen rfl hk).symm⟩, fun _ => rfl⟩
    · exact ⟨_, e, ⟨rfl, rfl, rfl, rfl, by simp [firstError_enc, hk, hm]⟩, fun _ => rfl⟩
    · exact ⟨_, e, ⟨rfl, rfl, rfl, rfl, by simp [firstError_enc, hk, hm.not_gt, hf]⟩, fun _ => rfl⟩
    · exact ⟨_, e, ⟨rfl, rfl, rfl, rfl, by simp [firstError_enc, hk, hm.not_gt, hf]⟩, fun _ => rfl⟩
  | dec =>
    rcases execDec_cases s with ⟨hk, e⟩ | ⟨hk, hm, e⟩ | ⟨hk, hm, hc, e⟩ | ⟨c, hk, hm, hc, hf, e⟩ |
      ⟨c, i, hk, hm, hc, hf, hd, e⟩ | ⟨c, i, m, hk, hm, hc, hf, hd, e⟩
    · exact ⟨_, e, ⟨rfl, rfl, rfl, rfl, (firstError_keylen rfl hk).symm⟩, fun _ => rfl⟩
    · exact ⟨_, e, ⟨rfl, rfl, rfl, rfl, by simp [firstError_dec, hk, hm]⟩, fun _ => rfl⟩
    · exact ⟨_, e, ⟨rfl, rfl, rfl, rfl, by simp [firstError_dec, hk, hm.not_gt, hc]⟩, fun _ => rfl⟩
    · exact ⟨_, e, ⟨rfl, rfl, rfl, rfl, by simp [firstError_dec, hk, hm.not_gt, hc, hf]⟩, fun _ => rfl⟩
    · exact ⟨_, e, ⟨rfl, rfl, rfl, rfl, by simp [firstError_dec, hk, hm.not_gt, hc, hf, hd]⟩, fun _ => rfl⟩
    · exact ⟨_, e, ⟨rfl, rfl, rfl, rfl, by simp [firstError_dec, hk, hm.not_gt, hc, hf, hd]⟩, fun _ => rfl⟩
  | encb =>
    rcases execEncb_cases s with ⟨hk, e⟩ | ⟨hk, e⟩
    · exact ⟨_, e, ⟨rfl, rfl, rfl, rfl, (firstError_keylen rfl hk).symm⟩, fun _ => rfl⟩
    · exact ⟨_, e, ⟨rfl, rfl, rfl, rfl, by simp [firstError, hk]⟩, fun _ => rfl⟩
  | decb =>
    rcases execDecb_cases s with ⟨hk, e⟩ | ⟨hk, e⟩
    · exact ⟨_, e, ⟨rfl, rfl, rfl, rfl, (firstError_keylen rfl hk).symm⟩, fun _ => rfl⟩
    · exact ⟨_, e, ⟨rfl, rfl, rfl, rfl, by simp [firstError, hk]⟩, fun _ => rfl⟩
  | sel =>
    rcases execSel_cases s with ⟨hl, e⟩ | ⟨hl, e⟩
    · exact ⟨_, e, ⟨rfl, rfl, rfl, rfl, by simp [firstError, hl]⟩, fun _ => rfl⟩
    · exact ⟨_, e, ⟨rfl, rfl, rfl, rfl, by simp [firstError, hl]⟩, fun _ => rfl⟩
  | rel =>
    rcases execRel_cases s with ⟨hl, e⟩ | ⟨hl, e⟩
    · exact ⟨_, e, ⟨rfl, rfl, rfl, rfl, by simp [firstError, hl]⟩, fun _ => rfl⟩
    · exact ⟨_, e, ⟨rfl, rfl, rfl, rfl, by simp [firstError, hl]⟩, fun _ => rfl⟩
  | clr => exact ⟨_, execClr_eq s, ⟨rfl, rfl, rfl, rfl, rfl⟩, fun h => absurd rfl h⟩

/-- Every completion ends its command; only CLR's touches WERR (60_exceptions.md R226). -/
theorem commandEnd_of_completion {s t : State} (ht : completion s = .next t) :
    ∃ e, CommandEnd e s t ∧ (decode s.pcmd ≠ .ok .clr → t.werr = s.werr) := by
  cases hd : decode s.pcmd with
  | ok i =>
    obtain ⟨u, hu, hend, hwerr⟩ := exec_ends i s
    rw [completion_of_ok hd, hu] at ht
    cases ht
    exact ⟨_, hend, fun hne => hwerr fun hi => hne (by rw [hi])⟩
  | error e =>
    cases (completion_of_error hd).symm.trans ht
    exact ⟨_, ⟨rfl, rfl, rfl, rfl, rfl⟩, fun _ => rfl⟩

end Sys2Proof.Machine
end

section
/-! PROOFS. The configuration and STATUS over every step: each statement is read off who moves, and what the transaction
or the completion then does. -/

namespace Sys2Proof.Machine

/-- No step changes the configuration (10_state.md R53). -/
theorem step_cfg {s t : State} (ht : step s = .next t) : t.cfg = s.cfg := by
  cases stepsTo_of_step ht with
  | completion hb hr hn h =>
    obtain ⟨e, hend, -⟩ := commandEnd_of_completion h
    exact hend.cfg
  | host x hr hn h => rw [h, hostStep_cfg]; rfl
  | assertReset hn h => rw [h]; rfl
  | deassertReset hn h => rw [h]; rfl
  | idle hi hn h => rw [h]; rfl

/-- Settles O9: no agent's move touches the configuration, and the sizes are its functions by definition. -/
theorem noStepChangesTheConfiguration : Obligations.NoStepChangesTheConfiguration :=
  ⟨fun _ _ ht => step_cfg ht, fun _ => ⟨rfl, rfl, rfl, rfl⟩⟩

/-- Settles O31: the agents that can touch BUSY are the sequencer, the host's acceptance and the reset input. -/
theorem busyChangesOnlyByAcceptanceCompletionOrReset : Obligations.BusyChangesOnlyByAcceptanceCompletionOrReset := by
  intro s t ht
  rw [← nextTurn_eq_core_iff]
  simp only [hostMoves_iff, sequencerMoves_iff, resetMoves_iff]
  cases stepsTo_of_step ht with
  | completion hb hr hn h =>
    obtain ⟨e, hend, -⟩ := commandEnd_of_completion h
    simp [hend.busy, hb, hr, hn]
  | host x hr hn h =>
    cases hb : s.busy <;> simp [h, hn, hr, hb, applyXact_busy]
  | assertReset hn h => simp [h, hn]
  | deassertReset hn h => simp [h, hn]
  | idle hi hn h => rcases hi with hb | hr <;> simp [*]

/-- Settles O32: DONE's writers are the completion, the host's acceptance and STATUS write, and the reset input. -/
theorem doneChangesOnlyByItsWriters : Obligations.DoneChangesOnlyByItsWriters := by
  intro s t ht
  simp only [hostMoves_iff, sequencerMoves_iff, resetMoves_iff]
  cases stepsTo_of_step ht with
  | completion hb hr hn h =>
    obtain ⟨e, hend, -⟩ := commandEnd_of_completion h
    simp [hend.done, hb, hr, hn]
  | host x hr hn h =>
    cases hd : s.done <;> simp [h, hn, hr, hd, applyXact_done]
  | assertReset hn h => simp [h, hn]
  | deassertReset hn h => simp [h, hn]
  | idle hi hn h => rcases hi with hb | hr <;> simp [*]

/-- Settles O33: WERR's writers are the host's dropped and STATUS writes, CLR's completion and the reset input. -/
theorem werrChangesOnlyByItsWriters : Obligations.WerrChangesOnlyByItsWriters := by
  intro s t ht
  simp only [hostMoves_iff, resetMoves_iff, completes_iff]
  cases stepsTo_of_step ht with
  | completion hb hr hn h =>
    obtain ⟨e, hend, hwerr⟩ := commandEnd_of_completion h
    by_cases hc : decode s.pcmd = .ok .clr
    · have hclr := (completion_of_ok (s := s.pop) hc).trans (execClr_eq s.pop)
      cases hclr.symm.trans h
      simp [hb, hr, hn, hc]
    · simp [hwerr hc, hn, hc]
  | host x hr hn h =>
    refine ⟨fun hs => ?_, fun hs => ?_⟩
    · simpa [h, hn, hr] using applyXact_sets_werr x (s := s.pop) hs
    · simpa [h, hn, hr] using applyXact_clears_werr x (s := s.pop) hs
  | assertReset hn h => simp [h, hn]
  | deassertReset hn h => simp [h, hn]
  | idle hi hn h => rcases hi with hb | hr <;> simp [*]

/-- Settles O34: a completion writes the first error of its command, and of the rest acceptance and reset write 0. -/
theorem errcodeChangesOnlyByItsWriters : Obligations.ErrcodeChangesOnlyByItsWriters := by
  intro s t ht
  simp only [hostMoves_iff, sequencerMoves_iff, resetMoves_iff, completes_iff]
  cases stepsTo_of_step ht with
  | completion hb hr hn h =>
    refine ⟨by simp [hn], ?_, ?_, by simp [hn], fun _ => .inr (.inl ⟨hb, hr, hn⟩)⟩
    · rintro i ⟨-, hi⟩
      obtain ⟨u, hu, hend, -⟩ := exec_ends i s.pop
      rw [completion_of_ok (s := s.pop) hi, hu] at h
      cases h
      exact hend.errcode.trans (firstError_pop i s)
    · intro e _ he
      cases (completion_of_error (s := s.pop) he).symm.trans h
      rfl
  | host x hr hn h =>
    refine ⟨?_, by simp [hn], by simp [hn], by simp [hn], fun hne => .inl ?_⟩
    · rintro w ⟨-, hx⟩ hb
      cases hn.symm.trans hx
      rw [h, hostStep_errcode]
      exact applyXact_errcode_of_accept hb
    · rw [h, hostStep_errcode] at hne
      obtain ⟨hb, w, hx⟩ := accepts_of_errcode_ne (s := s.pop) hne
      exact ⟨hb, w, hr, hn.trans (congrArg Turn.host hx)⟩
  | assertReset hn h => simp [h, hn]
  | deassertReset hn h => simp [h, hn]
  | idle hi hn h => rcases hi with hb | hr <;> simp [*]

end Sys2Proof.Machine
end

section
/-! PROOFS. The key cannot be read back: states that differ in KEYB alone move to states that differ in KEYB alone, by
every move but the completion of a keyed command (10_state.md R37). -/

namespace Sys2Proof.Machine

/-- Two states that differ in nothing but KEYB. -/
def EqButKeyb (s s' : State) : Prop := ∃ m, s' = { s with keyb := m }

/-- Two outcomes alike but for KEYB: where the first goes on, the second does, to a state alike but for KEYB. -/
def NextButKeyb (o o' : Host.Outcome State Fault Refusal) : Prop :=
  ∀ t, o = .next t → ∃ t', o' = .next t' ∧ EqButKeyb t t'

section
variable {s s' : State}

theorem NextButKeyb.next (h : EqButKeyb s s') : NextButKeyb (.next s) (.next s') := by
  rintro _ ⟨⟩
  exact ⟨s', rfl, h⟩

variable (h : EqButKeyb s s')
include h

/-! ### What does not depend on KEYB -/

theorem EqButKeyb.busy : s'.busy = s.busy := by obtain ⟨m, rfl⟩ := h; rfl
theorem EqButKeyb.inReset : s'.inReset = s.inReset := by obtain ⟨m, rfl⟩ := h; rfl
theorem EqButKeyb.pcmd : s'.pcmd = s.pcmd := by obtain ⟨m, rfl⟩ := h; rfl
theorem EqButKeyb.harg : s'.harg = s.harg := by obtain ⟨m, rfl⟩ := h; rfl
theorem EqButKeyb.replies : s'.replies = s.replies := by obtain ⟨m, rfl⟩ := h; rfl
theorem EqButKeyb.nextTurn : nextTurn s' = nextTurn s := by obtain ⟨m, rfl⟩ := h; rfl
theorem EqButKeyb.live (a : Word) : live s' a = live s a := by obtain ⟨m, rfl⟩ := h; rfl
theorem EqButKeyb.pop : EqButKeyb s.pop s'.pop := by obtain ⟨m, rfl⟩ := h; exact ⟨m, rfl⟩

/-- No answer to a transaction depends on KEYB (20_memory.md R74, R76). -/
theorem EqButKeyb.replyOf (x : Xact) : replyOf s' x = replyOf s x := by
  obtain ⟨m, rfl⟩ := h
  cases x <;> rfl

/-! ### Transactions -/

theorem EqButKeyb.wbyte (o : Nat) (b : Byte) : EqButKeyb (wbyte o b s) (wbyte o b s') := by
  obtain ⟨m, rfl⟩ := h
  unfold Machine.wbyte
  dsimp only
  split_ifs <;> exact ⟨_, rfl⟩

theorem EqButKeyb.wword (a : Nat) (w : Word) : EqButKeyb (wword a w s) (wword a w s') :=
  (((h.wbyte _ _).wbyte _ _).wbyte _ _).wbyte _ _

theorem EqButKeyb.ctrlWrite (o : Nat) (w : Word) : EqButKeyb (ctrlWrite o w s) (ctrlWrite o w s') := by
  obtain ⟨m, rfl⟩ := h
  unfold Machine.ctrlWrite
  dsimp only
  split_ifs <;> exact ⟨_, rfl⟩

theorem EqButKeyb.writeData (o : Offset) (w : Word) (sz : Size) :
    EqButKeyb (writeData o w s sz) (writeData o w s' sz) := by
  cases sz with
  | one => exact h.wbyte _ _
  | two | four =>
    unfold Machine.writeData
    dsimp only
    split
    · exact h.ctrlWrite _ _
    · exact h.wword _ _

theorem EqButKeyb.applyXact (x : Xact) : EqButKeyb (applyXact x s) (applyXact x s') := by
  cases x with
  | read o sz => exact h
  | write o sz w =>
    unfold Machine.applyXact
    dsimp only
    split
    · exact h.writeData _ _ _
    · exact h

theorem EqButKeyb.hostStep (x : Xact) : EqButKeyb (hostStep x s) (hostStep x s') := by
  obtain ⟨m, hm⟩ := h.applyXact x
  exact ⟨m, by rw [Machine.hostStep, hm, h.replyOf, h.replies]; rfl⟩

/-! ### Completions -/

theorem EqButKeyb.exec {i : Instr} (hi : i.keyed = false) : NextButKeyb (exec i s) (exec i s') := by
  cases i with
  | enc | dec | encb | decb => cases hi
  | sel =>
    show NextButKeyb (execSel s) (execSel s')
    rw [execSel, execSel, h.live, h.harg]
    obtain ⟨m, rfl⟩ := h
    split <;> exact .next ⟨m, rfl⟩
  | rel =>
    show NextButKeyb (execRel s) (execRel s')
    rw [execRel, execRel, h.live, h.harg]
    obtain ⟨m, rfl⟩ := h
    split <;> exact .next ⟨m, rfl⟩
  | clr =>
    obtain ⟨m, rfl⟩ := h
    exact .next ⟨[], rfl⟩

theorem EqButKeyb.completion (hk : ∀ i, decode s.pcmd = .ok i → i.keyed = false) :
    NextButKeyb (completion s) (completion s') := by
  cases hd : decode s.pcmd with
  | ok i =>
    rw [completion_of_ok hd, completion_of_ok (h.pcmd ▸ hd)]
    exact h.exec (hk i hd)
  | error e =>
    rw [completion_of_error hd, completion_of_error (h.pcmd ▸ hd)]
    obtain ⟨m, rfl⟩ := h
    exact .next ⟨m, rfl⟩

/-! ### The step -/

theorem EqButKeyb.takeTurn {t : Turn}
    (hk : t = .core → s.busy = true → s.inReset = false → ∀ i, decode s.pcmd = .ok i → i.keyed = false) :
    NextButKeyb (takeTurn t s) (takeTurn t s') := by
  cases t with
  | host x =>
    rw [Machine.takeTurn, Machine.takeTurn, h.inReset]
    split
    · rintro _ ⟨⟩
    · exact .next (h.hostStep x)
  | core =>
    rw [Machine.takeTurn, Machine.takeTurn, coreTurn, coreTurn, h.busy, h.inReset]
    split
    · rename_i hm
      obtain ⟨hb, hr⟩ := Bool.and_eq_true_iff.1 hm
      exact h.completion (hk rfl hb (by simpa using hr))
    · exact .next h
  | assertReset =>
    obtain ⟨m, rfl⟩ := h
    exact .next ⟨[], rfl⟩
  | deassertReset =>
    obtain ⟨m, rfl⟩ := h
    exact .next ⟨m, rfl⟩
  | freeElsewhere a => rintro _ ⟨⟩

theorem EqButKeyb.step (hk : ¬∃ i : Instr, i.keyed = true ∧ completes i s) : NextButKeyb (step s) (step s') := by
  rw [step_eq_takeTurn, step_eq_takeTurn, h.nextTurn]
  refine h.pop.takeTurn fun hn hb hr i hi => ?_
  by_contra hkeyed
  exact hk ⟨i, by simpa using hkeyed, completes_iff.2 ⟨⟨hb, hr, hn⟩, hi⟩⟩

end

/-- Settles O44: of the agents' moves only a keyed command's completion reads KEYB. -/
theorem theKeyRegisterIsNeverReadBack : Obligations.TheKeyRegisterIsNeverReadBack := by
  intro s t m hk ht
  have h : EqButKeyb s { s with keyb := m } := ⟨m, rfl⟩
  obtain ⟨_, ht', m', rfl⟩ := h.step hk t ht
  exact ⟨m', ht'⟩

end Sys2Proof.Machine
end

section
/-! PROOFS. The state after reset, and which handles are live. -/

namespace Sys2Proof.Machine

theorem resetOf_byteAt (c : Config) (sp : Space) (a : Nat) : byteAt (State.resetOf c) sp a = 0x00 := by
  obtain ⟨-, hw⟩ := reset_stores_ok c sp 0
  exact Memory.read_eq_unlisted_of_lt fun x hx => absurd (hw x hx) (Nat.not_lt_zero _)

theorem resetOf_slots {c : Config} {sl : Slot} (h : sl ∈ (State.resetOf c).slots) : sl = Slot.initial :=
  List.eq_of_mem_replicate h

/-- CTRL and STATUS hold no part of the configuration, so one evaluation, of the reference machine, is enough. -/
theorem resetOf_ctrlWord (c : Config) : ctrlWord (State.resetOf c) = 0 :=
  calc ctrlWord (State.resetOf c) = ctrlWord State.reset := rfl
    _ = 0 := by decide

theorem resetOf_statusWord (c : Config) : statusWord (State.resetOf c) = 0 :=
  calc statusWord (State.resetOf c) = statusWord State.reset := rfl
    _ = 0 := by decide

/-- Settles O10: the registers by definition, the byte stores because nothing is listed in them. -/
theorem resetLeavesEveryElementAtItsValue : Obligations.ResetLeavesEveryElementAtItsValue := by
  intro c
  refine ⟨resetOf_ctrlWord c, resetOf_statusWord c, rfl, rfl, rfl, rfl, rfl, rfl, rfl, rfl, resetOf_byteAt c,
    List.length_replicate, ?_, ?_, rfl, rfl, rfl, rfl, rfl, rfl, rfl, rfl, rfl, rfl⟩
  · intro sl hsl
    rw [resetOf_slots hsl]
    exact ⟨rfl, rfl, rfl, rfl⟩
  · intro i
    simp [State.resetOf, Engine.zero]

/-- Under the invariant no handle with generation 0 is live: a LIVE slot has another (10_state.md R47). -/
theorem Inv.live_of_handleGen_eq_zero {s : State} {h : Word} (hs : Inv s) (hg : handleGen h = 0) :
    live s h = false := by
  by_contra hl
  obtain ⟨sl, hsl, hlive, hgen⟩ := live_iff.1 (Bool.not_eq_false _ ▸ hl)
  exact (hs.slots sl (List.mem_of_getElem? hsl)).live hlive (hgen.trans hg)

/-- Settles O27: a live handle's slot is in the slot file, and LIVE slots have a generation other than 0. -/
theorem liveHandlesAreThoseOfLiveSlots : Obligations.LiveHandlesAreThoseOfLiveSlots := by
  intro s h
  refine ⟨fun hc => ?_, fun hs hg => hs.live_of_handleGen_eq_zero hg⟩
  rw [live_iff, ← hc]
  refine ⟨?_, fun ⟨_, hl⟩ => hl⟩
  rintro ⟨sl, hsl, hl⟩
  exact ⟨(List.getElem?_eq_some_iff.1 hsl).1, sl, hsl, hl⟩

end Sys2Proof.Machine
end

section
/-! PROOFS. What a host transaction is answered with and what it writes, offset by offset (20_memory.md R72 to R79).
A step of the host is its transaction on the block, the turn taken and the reply noted. -/

namespace Sys2Proof.Machine

/-! ### The host's step -/

/-- No answer to a transaction depends on the moves to come (20_memory.md R74, R76). -/
theorem replyOf_setTurns (x : Xact) (s : State) (ts : List Turn) : replyOf { s with turns := ts } x = replyOf s x := by
  cases x <;> rfl

theorem wbyte_setTurns (o : Nat) (b : Byte) (s : State) (ts : List Turn) :
    wbyte o b { s with turns := ts } = { wbyte o b s with turns := ts } := by
  unfold wbyte
  dsimp only
  split_ifs <;> rfl

theorem wword_setTurns (a : Nat) (w : Word) (s : State) (ts : List Turn) :
    wword a w { s with turns := ts } = { wword a w s with turns := ts } := by
  simp only [wword, wbyte_setTurns]

theorem ctrlWrite_setTurns (o : Nat) (w : Word) (s : State) (ts : List Turn) :
    ctrlWrite o w { s with turns := ts } = { ctrlWrite o w s with turns := ts } := by
  unfold ctrlWrite
  dsimp only
  split_ifs <;> rfl

theorem writeData_setTurns (o : Offset) (w : Word) (s : State) (sz : Size) (ts : List Turn) :
    writeData o w { s with turns := ts } sz = { writeData o w s sz with turns := ts } := by
  cases sz with
  | one => exact wbyte_setTurns _ _ _ _
  | two | four =>
    unfold writeData
    dsimp only
    split
    · exact ctrlWrite_setTurns _ _ _ _
    · exact wword_setTurns _ _ _ _

/-- What a transaction does to the block does not depend on the moves to come, and leaves them. -/
theorem applyXact_setTurns (x : Xact) (s : State) (ts : List Turn) :
    applyXact x { s with turns := ts } = { applyXact x s with turns := ts } := by
  cases x with
  | read o sz => rfl
  | write o sz w =>
    unfold applyXact
    dsimp only
    split
    · exact writeData_setTurns _ _ _ _ _
    · rfl

/-- The host's step in terms of the state before it (20_memory.md R71, R85). -/
theorem step_eq_applyXact {x : Xact} {s : State} (h : hostMoves x s) :
    step s = .next { applyXact x s with turns := s.turns.tail, replies := replyOf s x :: s.replies } := by
  rw [step_of_hostMoves h, hostStep, State.pop, applyXact_setTurns, replyOf_setTurns]

/-! ### Legality -/

/-- The transactions that 20_memory.md R72 answers with ERROR. -/
theorem legalAccess_eq_false_iff {o : Offset} {sz : Size} : legalAccess o sz = false ↔
    sz = .two ∨ (sz = .four ∧ o.toNat % 4 ≠ 0) ∨ (sz = .one ∧ o.toNat < 0x030) := by
  cases sz <;> simp [legalAccess]

theorem legalAccess_iff {o : Offset} {sz : Size} : legalAccess o sz = true ↔
    (sz = .four ∧ o.toNat % 4 = 0) ∨ (sz = .one ∧ 0x030 ≤ o.toNat) := by
  cases sz <;> simp [legalAccess]

theorem replyOf_read_of_legal {o : Offset} {sz : Size} (s : State) (hl : legalAccess o sz = true) :
    replyOf s (.read o sz) = .read (readData s o sz) .okay := if_pos hl

theorem replyOf_write_of_legal {o : Offset} {sz : Size} (w : Word) (s : State) (hl : legalAccess o sz = true) :
    replyOf s (.write o sz w) = .write .okay := if_pos hl

/-- Settles O36: a transaction is illegal exactly at the sizes and offsets R72 lists, and then the block is as it was. -/
theorem illegalTransactionsGetErrorAndHaveNoEffect : Obligations.IllegalTransactionsGetErrorAndHaveNoEffect := by
  intro s o sz w
  refine ⟨fun hx => ?_, fun hx => ?_⟩
  · have hl := legalAccess_eq_false_iff.2 hx
    exact ⟨fun hm => by rw [step_eq_applyXact hm]; simp [applyXact, replyOf, hl],
      fun hm => by rw [step_eq_applyXact hm]; simp [applyXact, replyOf, hl]⟩
  · have hl := legalAccess_iff.2 hx
    refine ⟨fun hm => ⟨_, readData s o sz, step_eq_applyXact hm, ?_⟩, fun hm => ⟨_, step_eq_applyXact hm, ?_⟩⟩
    · rw [replyOf_read_of_legal s hl]
    · rw [replyOf_write_of_legal w s hl]

/-! ### What a byte reads as, region by region (20_memory.md R74) -/

section
variable {s : State} {o : Nat}

theorem rbyte_keyb (h : o ≤ 0x037) : rbyte s o = 0 := by
  simp [rbyte, h]

theorem rbyte_din (h : 0x038 ≤ o) (h' : o ≤ 0x03F) : rbyte s o = byteAt s .din (o - 0x038) := by
  rw [rbyte, if_neg (by omega), if_pos h']

theorem rbyte_dout (h : 0x040 ≤ o) (h' : o ≤ 0x047) :
    rbyte s o = if s.busy = true then 0 else byteAt s .dout (o - 0x040) := by
  rw [rbyte, if_neg (by omega), if_neg (by omega), if_pos h']

theorem rbyte_reserved (h : 0x048 ≤ o) (h' : o ≤ 0x3FF) : rbyte s o = 0 := by
  rw [rbyte, if_neg (by omega), if_neg (by omega), if_neg (by omega), if_pos h']

theorem rbyte_ibuf (h : 0x400 ≤ o) (h' : o ≤ 0x7FF) :
    rbyte s o = if o - 0x400 < s.cfg.ibufBytes then byteAt s .ibuf (o - 0x400) else 0 := by
  rw [rbyte, if_neg (by omega), if_neg (by omega), if_neg (by omega), if_neg (by omega), if_pos h']

/-- The OBUF window (10_state.md R41). -/
theorem rbyte_window (h : 0x800 ≤ o) :
    rbyte s o = if s.busy = false ∧ s.selv = true ∧ live s s.selh = true ∧ o - 0x800 < s.cfg.slotBytes then
      byteAt s (.slot (handleSlot s.selh)) (o - 0x800) else 0 := by
  rw [rbyte, if_neg (by omega), if_neg (by omega), if_neg (by omega), if_neg (by omega), if_neg (by omega)]
  simp [and_assoc]

end

theorem replyOf_read_byte {o : Offset} (s : State) (ho : 0x030 ≤ o.toNat) :
    replyOf s (.read o .one) = .read ((rbyte s o.toNat).setWidth 32) .okay :=
  replyOf_read_of_legal s (legalAccess_iff.2 (.inr ⟨rfl, ho⟩))

theorem replyOf_read_ctrl {o : Offset} (s : State) (ha : o.toNat % 4 = 0) (ho : o.toNat < 0x030) :
    replyOf s (.read o .four) = .read (ctrlRead s o.toNat) .okay := by
  rw [replyOf_read_of_legal s (legalAccess_iff.2 (.inl ⟨rfl, ha⟩)), readData, if_pos ho]

theorem replyOf_read_word {o : Offset} (s : State) (ha : o.toNat % 4 = 0) (ho : 0x030 ≤ o.toNat) :
    replyOf s (.read o .four) = .read (rword s o.toNat) .okay := by
  rw [replyOf_read_of_legal s (legalAccess_iff.2 (.inl ⟨rfl, ha⟩)), readData, if_neg (by omega)]

/-! ### What a write does outside the control region -/

theorem applyXact_write_byte {o : Offset} (w : Word) (s : State) (ho : 0x030 ≤ o.toNat) :
    applyXact (.write o .one w) s = wbyte o.toNat (w.extractLsb' 0 8) s :=
  applyXact_of_legal (legalAccess_iff.2 (.inr ⟨rfl, ho⟩))

theorem applyXact_write_ctrl {o : Offset} (w : Word) (s : State) (ha : o.toNat % 4 = 0) (ho : o.toNat < 0x030) :
    applyXact (.write o .four w) s = ctrlWrite o.toNat w s := by
  rw [applyXact_of_legal (legalAccess_iff.2 (.inl ⟨rfl, ha⟩)), writeData, if_pos ho]

theorem applyXact_write_word {o : Offset} (w : Word) (s : State) (ha : o.toNat % 4 = 0) (ho : 0x030 ≤ o.toNat) :
    applyXact (.write o .four w) s = wword o.toNat w s := by
  rw [applyXact_of_legal (legalAccess_iff.2 (.inl ⟨rfl, ha⟩)), writeData, if_neg (by omega)]

/-- A write of four bytes, none an input of a command, changes nothing (20_memory.md R75). -/
theorem wword_other {a : Nat} {s : State} (w : Word) (ha : a % 4 = 0) (h : 0x030 ≤ a) (hc : ¬commandInput s.cfg a) :
    wword a w s = s := by
  have hbyte : ∀ i < 4, ∀ b, wbyte (a + i) b s = s := fun i hi b =>
    wbyte_other b (by omega) (mt (commandInput_add ha h hi).1 hc)
  rw [wword, wbyte_other _ h hc, hbyte 1 (by omega), hbyte 2 (by omega), hbyte 3 (by omega)]

/-- A write outside the control region that is no input of a command changes nothing (20_memory.md R75). -/
theorem applyXact_write_other {o : Offset} {s : State} (sz : Size) (w : Word) (ho : 0x030 ≤ o.toNat)
    (hc : ¬commandInput s.cfg o.toNat) : applyXact (.write o sz w) s = s := by
  cases hl : legalAccess o sz with
  | false => simp [applyXact, hl]
  | true =>
    rcases legalAccess_iff.1 hl with ⟨rfl, ha⟩ | ⟨rfl, -⟩
    · rw [applyXact_write_word w s ha ho, wword_other w ha ho hc]
    · rw [applyXact_write_byte w s ho, wbyte_other _ ho hc]

/-- In a legal configuration IBUF ends below the OBUF window (00_scope.md R5). -/
theorem not_commandInput_window {c : Config} {o : Nat} (hc : c.legal = true) (h : 0x800 ≤ o) : ¬commandInput c o := by
  have := Config.legal_iff.1 hc
  unfold commandInput Config.ibufBytes
  omega

/-- Settles O42: R74 region by region, and the window is no input of a command. -/
theorem windowReadsTheSelectedSlotOrZero : Obligations.WindowReadsTheSelectedSlotOrZero := by
  intro s o
  refine ⟨fun h h' => ?_, fun h h' => ?_, fun h h' => ?_, fun h h' => ?_, fun h h' => ?_, fun h => ?_,
    fun h hc sz w => applyXact_write_other sz w (by omega) (not_commandInput_window hc h)⟩ <;>
    rw [replyOf_read_byte s (by omega)]
  · rw [rbyte_keyb h']; rfl
  · rw [rbyte_din h h']
  · rw [rbyte_dout h h', apply_ite (BitVec.setWidth 32)]; rfl
  · rw [rbyte_reserved h h']; rfl
  · rw [rbyte_ibuf h h', apply_ite (BitVec.setWidth 32)]; rfl
  · rw [rbyte_window h, apply_ite (BitVec.setWidth 32)]; rfl

/-- A word's bytes do not run past the window: an aligned offset and its lane have no carry (20_memory.md R73). -/
theorem toNat_add_lane {o : Offset} {i : Nat} (ha : o.toNat % 4 = 0) (hi : i < 4) :
    (o + BitVec.ofNat 12 i).toNat = o.toNat + i := by
  have := o.isLt
  rw [BitVec.toNat_add, BitVec.toNat_ofNat]
  omega

theorem replyOf_read_lane {o : Offset} {i : Nat} (s : State) (ha : o.toNat % 4 = 0) (ho : 0x030 ≤ o.toNat)
    (hi : i < 4) :
    replyOf s (.read (o + BitVec.ofNat 12 i) .one) = .read ((rbyte s (o.toNat + i)).setWidth 32) .okay := by
  have hn := toNat_add_lane ha hi
  rw [replyOf_read_byte s (by omega), hn]

theorem applyXact_write_lane {o : Offset} {i : Nat} (b : Byte) (s : State) (ha : o.toNat % 4 = 0)
    (ho : 0x030 ≤ o.toNat) (hi : i < 4) :
    applyXact (.write (o + BitVec.ofNat 12 i) .one (b.setWidth 32)) s = wbyte (o.toNat + i) b s := by
  have hn := toNat_add_lane ha hi
  rw [applyXact_write_byte _ s (by omega), hn, BitVec.extractLsb'_setWidth_of_le (by omega), BitVec.extractLsb'_eq_self]

/-- Settles O43: a word is its four lanes, and a byte access at lane `i` is one at the offset `i` further. -/
theorem wordAccessesAreFourByteAccesses : Obligations.WordAccessesAreFourByteAccesses := by
  intro s o w ha ho
  have h0 (b : Byte) (u : State) : applyXact (.write o .one (b.setWidth 32)) u = wbyte o.toNat b u := by
    simpa using applyXact_write_lane (i := 0) b u ha ho (by omega)
  have h1 (b : Byte) (u : State) : applyXact (.write (o + 1) .one (b.setWidth 32)) u = wbyte (o.toNat + 1) b u :=
    applyXact_write_lane (i := 1) b u ha ho (by omega)
  have h2 (b : Byte) (u : State) : applyXact (.write (o + 2) .one (b.setWidth 32)) u = wbyte (o.toNat + 2) b u :=
    applyXact_write_lane (i := 2) b u ha ho (by omega)
  have h3 (b : Byte) (u : State) : applyXact (.write (o + 3) .one (b.setWidth 32)) u = wbyte (o.toNat + 3) b u :=
    applyXact_write_lane (i := 3) b u ha ho (by omega)
  refine ⟨⟨_, _, _, _, replyOf_read_word s ha ho, replyOf_read_byte s ho, replyOf_read_lane (i := 1) s ha ho (by omega),
    replyOf_read_lane (i := 2) s ha ho (by omega), replyOf_read_lane (i := 3) s ha ho (by omega)⟩, ?_⟩
  rw [applyXact_write_word w s ha ho, h0, h1, h2, h3, wword]

end Sys2Proof.Machine
end

section
/-! PROOFS. Control registers, and what BUSY changes: results read 0, and the inputs of commands keep their values
(20_memory.md R75 to R79). -/

namespace Sys2Proof.Machine

/-! ### The words of the control registers -/

theorem ctrlWord_eq (s : State) : ctrlWord s = if s.irqEn = true then 1 else 0 := by
  unfold ctrlWord
  cases s.irqEn <;> decide

theorem selView_eq (s : State) :
    selView s = if s.busy = false ∧ s.selv = true then (selectedSlot s).len ++ (1 : BitVec 16) else 0 := by
  simp [selView]

/-- The fields of STATUS (10_state.md R25). -/
theorem statusWord_fields (s : State) :
    (statusWord s).getLsbD 0 = s.busy ∧ (statusWord s).getLsbD 1 = s.done ∧ (statusWord s).getLsbD 2 = s.werr ∧
    (statusWord s).getLsbD 3 = false ∧ (statusWord s).extractLsb' 8 24 = 0 ∧
    (statusWord s).extractLsb' 4 4 = errCode s.errcode := by
  unfold statusWord
  generalize errCode s.errcode = e
  cases s.busy <;> cases s.done <;> cases s.werr <;> revert e <;> decide

/-- Under the invariant STATUS shows nothing but BUSY and WERR while busy (20_memory.md R79). -/
theorem Inv.statusWord_of_busy {s : State} (hs : Inv s) (hb : s.busy = true) :
    statusWord s = if s.werr = true then 0x00000005 else 0x00000001 := by
  obtain ⟨hd, he⟩ := hs.busy hb
  unfold statusWord
  rw [hb, hd, he]
  cases s.werr <;> decide

/-- Settles O41: each line of R76 in turn. -/
theorem controlRegisterReadsFollowTheirLines : Obligations.ControlRegisterReadsFollowTheirLines := by
  intro s o ho ha
  refine ⟨ctrlRead s o.toNat, replyOf_read_ctrl s ha ho, ?_⟩
  generalize o.toNat = n
  refine ⟨?_, ?_, ?_, ?_, ?_, ?_, ?_, ?_, ?_, ?_, ?_, ?_⟩ <;> rintro rfl
  · rfl
  · rfl
  · exact ctrlWord_eq s
  · obtain ⟨hbusy, hdone, hwerr, hzero, hhigh, hcode⟩ := statusWord_fields s
    have hc {e : Option CmdError} (he : s.errcode = e) : (statusWord s).extractLsb' 4 4 = errCode e := he ▸ hcode
    exact ⟨hbusy, hdone, hwerr, hzero, hhigh, hc, hc, hc, hc, hc, hc, hc, hc⟩
  · rfl
  · rfl
  · rfl
  · rfl
  · rfl
  · rw [BitVec.ofNat_toNat]; rfl
  · exact selView_eq s
  · rfl

/-! ### Writes of control registers, line by line (20_memory.md R77) -/

section
variable {o : Nat} {s : State} (w : Word)

theorem writeStatus_eq (s : State) : writeStatus w s =
    { s with done := if w.getLsbD 1 then false else s.done, werr := if w.getLsbD 2 then false else s.werr } := by
  unfold writeStatus
  cases w.getLsbD 1 <;> cases w.getLsbD 2 <;> simp

theorem ctrlWrite_ctrl (s : State) : ctrlWrite 0x008 w s = { s with irqEn := w.getLsbD 0 } := rfl

theorem ctrlWrite_status (s : State) : ctrlWrite 0x00C w s = writeStatus w s := rfl

theorem ctrlWrite_busy (hi : o = 0x010 ∨ o = 0x014 ∨ o = 0x018 ∨ o = 0x01C) (hb : s.busy = true) :
    ctrlWrite o w s = dropWrite s := by
  rw [ctrlWrite, if_neg (by omega), if_neg (by omega), if_pos hi, if_pos hb]

theorem ctrlWrite_cmd (hb : s.busy = false) : ctrlWrite 0x010 w s = accept w s := by
  simp [ctrlWrite, hb]

theorem ctrlWrite_keylen (hb : s.busy = false) : ctrlWrite 0x014 w s = { s with keylen := w } := by
  simp [ctrlWrite, hb]

theorem ctrlWrite_mlen (hb : s.busy = false) : ctrlWrite 0x018 w s = { s with mlen := w } := by
  simp [ctrlWrite, hb]

theorem ctrlWrite_harg (hb : s.busy = false) : ctrlWrite 0x01C w s = { s with harg := w } := by
  simp [ctrlWrite, hb]

/-- Every other register is read-only. -/
theorem ctrlWrite_readOnly (s : State) (h : o ≠ 0x008) (h' : o ≠ 0x00C)
    (hi : ¬(o = 0x010 ∨ o = 0x014 ∨ o = 0x018 ∨ o = 0x01C)) : ctrlWrite o w s = s := by
  rw [ctrlWrite, if_neg h, if_neg h', if_neg hi]

end

/-- Settles O40: the host's step is the register's write, and each line of R77 in turn. -/
theorem controlRegisterWritesFollowTheirLines : Obligations.ControlRegisterWritesFollowTheirLines := by
  intro s o w hm ho ha
  refine ⟨ctrlWrite o.toNat w s, ?_, ?_⟩
  · rw [step_eq_applyXact hm, applyXact_write_ctrl w s ha ho,
      replyOf_write_of_legal w s (legalAccess_iff.2 (.inl ⟨rfl, ha⟩))]
  generalize o.toNat = n
  refine ⟨?_, ?_, fun hi hb => ctrlWrite_busy w hi hb, fun hb => ⟨?_, ?_, ?_, ?_⟩, fun hn => ?_⟩
  · rintro rfl
    exact ctrlWrite_ctrl w s
  · rintro rfl
    exact writeStatus_eq w s
  · rintro rfl
    exact ctrlWrite_cmd w hb
  · rintro rfl
    exact ctrlWrite_keylen w hb
  · rintro rfl
    exact ctrlWrite_mlen w hb
  · rintro rfl
    exact ctrlWrite_harg w hb
  · exact ctrlWrite_readOnly w s (by omega) (by omega) (by omega)

/-! ### While busy -/

/-- A legal write of an input of a command is dropped while busy (20_memory.md R78). -/
theorem applyXact_of_commandInput {o : Offset} {sz : Size} (w : Word) {s : State} (hb : s.busy = true)
    (hl : legalAccess o sz = true) (hi : commandInput s.cfg o.toNat) :
    applyXact (.write o sz w) s = dropWrite s := by
  cases xactStatus (.write o sz w) s with
  | accept w' hx hidle h => exact absurd hidle (by simp [hb])
  | clear w' hx h => exact absurd hx (ne_status_of_commandInput rfl hi w')
  | dropped o' sz' w' hx hl' hi' hb' h => exact h
  | keeps ha hc hd h => exact absurd ⟨hb, o, sz, w, rfl, hl, hi⟩ hd

/-- Settles O38: every input of a command is dropped alike; CTRL and STATUS are written whatever BUSY is. -/
theorem writesWhileBusyAreDroppedAndSetWerr : Obligations.WritesWhileBusyAreDroppedAndSetWerr := by
  intro s o sz w hb hm
  rw [step_eq_applyXact hm]
  refine ⟨fun hl hi => ?_, ?_, ?_⟩
  · rw [applyXact_of_commandInput w hb hl hi, replyOf_write_of_legal w s hl]
    rfl
  · rintro ho rfl
    obtain rfl : o = 0x008 := BitVec.eq_of_toNat_eq ho
    rfl
  · rintro ho rfl
    obtain rfl : o = 0x00C := BitVec.eq_of_toNat_eq ho
    rw [applyXact_write_ctrl w s (by decide) (by decide), ho, ctrlWrite_status, writeStatus_eq]
    rfl

/-- The offsets at which a command's results are read: RHANDLE, RLEN, SEL, DOUT and the OBUF window (20_memory.md
R79). -/
abbrev resultOffset (o : Nat) : Prop :=
  o = 0x020 ∨ o = 0x024 ∨ o = 0x028 ∨ (0x040 ≤ o ∧ o ≤ 0x047) ∨ 0x800 ≤ o

/-- The region of results starts and ends at multiples of 4, so a lane is in it where its word is. -/
theorem resultOffset_add {a i : Nat} (ha : a % 4 = 0) (h : 0x030 ≤ a) (hi : i < 4) :
    resultOffset (a + i) ↔ resultOffset a := by
  unfold resultOffset
  omega

section
variable {s : State} {o : Nat}

theorem rbyte_result (hb : s.busy = true) (ho : 0x030 ≤ o) (h : resultOffset o) : rbyte s o = 0 := by
  by_cases hw : 0x800 ≤ o
  · rw [rbyte_window hw, if_neg (by simp [hb])]
  · unfold resultOffset at h
    rw [rbyte_dout (by omega) (by omega), if_pos hb]

theorem rbyte_of_not_result (b : Bool) (h : ¬resultOffset o) : rbyte { s with busy := b } o = rbyte s o := by
  unfold resultOffset at h
  rcases (by omega : o ≤ 0x037 ∨ (0x038 ≤ o ∧ o ≤ 0x03F) ∨ (0x048 ≤ o ∧ o ≤ 0x3FF) ∨ (0x400 ≤ o ∧ o ≤ 0x7FF)) with
    h1 | ⟨h1, h2⟩ | ⟨h1, h2⟩ | ⟨h1, h2⟩
  · rw [rbyte_keyb h1, rbyte_keyb h1]
  · rw [rbyte_din h1 h2, rbyte_din h1 h2]; rfl
  · rw [rbyte_reserved h1 h2, rbyte_reserved h1 h2]
  · rw [rbyte_ibuf h1 h2, rbyte_ibuf h1 h2]; rfl

theorem rword_result (hb : s.busy = true) (ha : o % 4 = 0) (ho : 0x030 ≤ o) (h : resultOffset o) : rword s o = 0 := by
  have hlane : ∀ i < 4, rbyte s (o + i) = 0 := fun i hi =>
    rbyte_result hb (by omega) ((resultOffset_add ha ho hi).2 h)
  rw [rword, hlane 1 (by omega), hlane 2 (by omega), hlane 3 (by omega), rbyte_result hb ho h]
  rfl

theorem rword_of_not_result (b : Bool) (ha : o % 4 = 0) (ho : 0x030 ≤ o) (h : ¬resultOffset o) :
    rword { s with busy := b } o = rword s o := by
  have hlane : ∀ i < 4, rbyte { s with busy := b } (o + i) = rbyte s (o + i) := fun i hi =>
    rbyte_of_not_result b (mt (resultOffset_add ha ho hi).1 h)
  rw [rword, hlane 1 (by omega), hlane 2 (by omega), hlane 3 (by omega), rbyte_of_not_result b h, rword]

theorem ctrlRead_result (hb : s.busy = true) (ho : o < 0x030) (h : resultOffset o) : ctrlRead s o = 0 := by
  obtain rfl | rfl | rfl : o = 0x020 ∨ o = 0x024 ∨ o = 0x028 := by unfold resultOffset at h; omega
  · exact if_pos hb
  · exact if_pos hb
  · exact (selView_eq s).trans (if_neg (by simp [hb]))

theorem ctrlRead_of_not_result (b : Bool) (h : ¬resultOffset o) (hs : o ≠ 0x00C) :
    ctrlRead { s with busy := b } o = ctrlRead s o := by
  unfold resultOffset at h
  have h1 : o ≠ 0x020 := by omega
  have h2 : o ≠ 0x024 := by omega
  have h3 : o ≠ 0x028 := by omega
  simp only [ctrlRead, hs, h1, h2, h3, if_false]
  rfl

end

section
variable {s : State} {o : Offset} {sz : Size} (hl : legalAccess o sz = true)
include hl

/-- A result reads 0 while busy, by a word or by a byte (20_memory.md R79). -/
theorem readData_result (hb : s.busy = true) (h : resultOffset o.toNat) : readData s o sz = 0 := by
  rcases legalAccess_iff.1 hl with ⟨rfl, ha⟩ | ⟨rfl, ho⟩
  · by_cases ho : o.toNat < 0x030
    · exact (if_pos ho).trans (ctrlRead_result hb ho h)
    · exact (if_neg ho).trans (rword_result hb ha (by omega) h)
  · rw [readData, rbyte_result hb ho h]
    rfl

/-- What is neither a result nor STATUS reads the same busy or idle (20_memory.md R79). -/
theorem readData_of_not_result (b : Bool) (h : ¬resultOffset o.toNat) (hs : o.toNat ≠ 0x00C) :
    readData { s with busy := b } o sz = readData s o sz := by
  rcases legalAccess_iff.1 hl with ⟨rfl, ha⟩ | ⟨rfl, ho⟩
  · unfold readData
    dsimp only
    split
    · exact ctrlRead_of_not_result b h hs
    · exact rword_of_not_result b ha (by omega) h
  · rw [readData, rbyte_of_not_result b h, readData]

end

/-- Settles O37: a read is answered from the state and leaves it, and each line of R79 says what data it is answered
with. -/
theorem readsHaveNoSideEffectAndResultsReadZeroWhileBusy :
    Obligations.ReadsHaveNoSideEffectAndResultsReadZeroWhileBusy := by
  intro s o sz hm
  refine ⟨replyOf s (.read o sz), step_eq_applyXact hm, fun hb hl => ?_⟩
  rw [replyOf_read_of_legal s hl]
  refine ⟨fun h => ?_, fun hs ho => ?_, fun h => ?_⟩
  · rw [readData_result hl hb h]
  · obtain ⟨rfl, -⟩ : sz = .four ∧ o.toNat % 4 = 0 := (legalAccess_iff.1 hl).resolve_right (by omega)
    obtain rfl : o = 0x00C := BitVec.eq_of_toNat_eq ho
    rw [← hs.statusWord_of_busy hb]
    rfl
  · rw [replyOf_read_of_legal _ hl, readData_of_not_result hl false (by unfold resultOffset; omega) (by omega)]

/-! ### Byte writes -/

theorem Memory.read_write {m : Memory} (hm : Memory.wf m) (a : Nat) (b : Byte) (i : Nat) :
    Memory.read (Memory.write m a b) i = if i = a then b else Memory.read m i := by
  split
  · next h => rw [h, Memory.read_write_same m a b hm.1]
  · next h => exact Memory.read_write_other m b h

section
variable {s : State} {o : Nat} (b : Byte) (hb : s.busy = false)
include hb

theorem wbyte_keyb (h : 0x030 ≤ o) (h' : o ≤ 0x037) : wbyte o b s = memWrite .keyb (o - 0x030) [b] s := by
  rw [wbyte, if_pos (by omega), if_neg (by simp [hb]), if_pos h']

theorem wbyte_din (h : 0x038 ≤ o) (h' : o ≤ 0x03F) : wbyte o b s = memWrite .din (o - 0x038) [b] s := by
  rw [wbyte, if_pos (by omega), if_neg (by simp [hb]), if_neg (by omega), if_pos h']

theorem wbyte_ibuf (h : 0x400 ≤ o) (h' : o < 0x400 + s.cfg.ibufBytes) :
    wbyte o b s = memWrite .ibuf (o - 0x400) [b] s := by
  rw [wbyte, if_pos (by omega), if_neg (by simp [hb]), if_neg (by omega), if_neg (by omega)]

/-- An idle byte write stores one byte where an input of a command is, and is ignored elsewhere (20_memory.md R75). -/
theorem byteAt_wbyte (hs : Inv s) (ho : 0x030 ≤ o) :
    (∀ a, byteAt (wbyte o b s) .keyb a = if o ≤ 0x037 ∧ a = o - 0x030 then b else byteAt s .keyb a) ∧
    (∀ a, byteAt (wbyte o b s) .din a = if 0x038 ≤ o ∧ o ≤ 0x03F ∧ a = o - 0x038 then b else byteAt s .din a) ∧
    (∀ a, byteAt (wbyte o b s) .ibuf a = if 0x400 ≤ o ∧ o < 0x400 + s.cfg.ibufBytes ∧ a = o - 0x400 then b
      else byteAt s .ibuf a) := by
  rcases (by omega : o ≤ 0x037 ∨ (0x038 ≤ o ∧ o ≤ 0x03F) ∨ (0x400 ≤ o ∧ o < 0x400 + s.cfg.ibufBytes) ∨
    (0x040 ≤ o ∧ ¬(0x400 ≤ o ∧ o < 0x400 + s.cfg.ibufBytes))) with h1 | ⟨h1, h2⟩ | ⟨h1, h2⟩ | ⟨h1, h2⟩
  · rw [wbyte_keyb b hb ho h1]
    refine ⟨fun a => ?_, fun a => (if_neg (by omega)).symm, fun a => (if_neg (by omega)).symm⟩
    simp [h1, Memory.read_write hs.keyb.1]
  · rw [wbyte_din b hb h1 h2]
    refine ⟨fun a => (if_neg (by omega)).symm, fun a => ?_, fun a => (if_neg (by omega)).symm⟩
    simp [h1, h2, Memory.read_write hs.din.1]
  · rw [wbyte_ibuf b hb h1 h2]
    refine ⟨fun a => (if_neg (by omega)).symm, fun a => (if_neg (by omega)).symm, fun a => ?_⟩
    simp [h1, h2, Memory.read_write hs.ibuf.1]
  · rw [wbyte_other b ho (by unfold commandInput; omega)]
    exact ⟨fun a => (if_neg (by omega)).symm, fun a => (if_neg (by omega)).symm, fun a => (if_neg (by omega)).symm⟩

/-- All that an idle byte write can change (20_memory.md R75). -/
theorem wbyte_frame : wbyte o b s =
    { s with keyb := (wbyte o b s).keyb, din := (wbyte o b s).din, ibuf := (wbyte o b s).ibuf } := by
  conv_lhs => rw [(wbyte_same o b s).eq, wbyte_werr hb]

end

/-- Settles O39: busy, a byte write is dropped or ignored; idle, it stores its byte and leaves every other. -/
theorem byteWritesStoreOneByte : Obligations.ByteWritesStoreOneByte := by
  intro s o w hs hm ho
  rw [step_eq_applyXact hm, applyXact_write_byte w s ho,
    replyOf_write_of_legal w s (legalAccess_iff.2 (.inr ⟨rfl, ho⟩))]
  refine ⟨fun hb => ?_, fun hb => ⟨_, rfl, ?_, byteAt_wbyte _ hb hs ho⟩⟩
  · rw [wbyte_busy _ ho hb]
    by_cases hi : commandInput s.cfg o.toNat
    · rw [if_pos hi, if_pos (by unfold commandInput at hi; omega)]
      rfl
    · rw [if_neg hi, if_neg (by unfold commandInput at hi; omega)]
  · conv_lhs => rw [wbyte_frame _ hb]

end Sys2Proof.Machine
end

section
/-! PROOFS. The command words (30_encoding.md R100 to R102): a word is its two fields, and the decoder reads both. -/

namespace Sys2Proof

/-! ### Fields of a word -/

theorem rsvField_append_opField (w : Word) : rsvField w ++ opField w = w :=
  BitVec.extractLsb'_append_extractLsb' (w := 24) (len := 8)

@[simp] theorem rsvField_encode (i : Instr) : rsvField (encode i) = 0 := BitVec.extractLsb'_append_eq_left

@[simp] theorem opField_encode (i : Instr) : opField (encode i) = opcode i := BitVec.extractLsb'_append_eq_right

/-- The word of a command, field by field (R100). -/
theorem eq_encode_iff {w : Word} {i : Instr} : w = encode i ↔ rsvField w = 0 ∧ opField w = opcode i := by
  refine ⟨?_, fun ⟨hr, ho⟩ => ?_⟩
  · rintro rfl
    exact ⟨rsvField_encode i, opField_encode i⟩
  · rw [← rsvField_append_opField w, hr, ho, encode]

/-- The operation codes that R101 assigns are those that R102 calls legal. -/
theorem exists_eq_opcode_iff {op : BitVec 8} : (∃ i, op = opcode i) ↔ 1 ≤ op.toNat ∧ op.toNat ≤ 7 := by
  constructor
  · rintro ⟨i, rfl⟩
    cases i <;> decide
  · intro hop
    obtain h | h | h | h | h | h | h :
        op = 0x01 ∨ op = 0x02 ∨ op = 0x03 ∨ op = 0x04 ∨ op = 0x05 ∨ op = 0x06 ∨ op = 0x07 := by bv_omega
    exacts [⟨.enc, h⟩, ⟨.dec, h⟩, ⟨.encb, h⟩, ⟨.decb, h⟩, ⟨.sel, h⟩, ⟨.rel, h⟩, ⟨.clr, h⟩]

/-! ### The decoder -/

/-- What the decoder accepts, field by field (R101). -/
theorem decode_eq_ok_iff {w : Word} {i : Instr} : decode w = .ok i ↔ rsvField w = 0 ∧ opField w = opcode i := by
  constructor
  · intro h
    unfold decode at h
    split_ifs at h with hr h1 h2 h3 h4 h5 h6 h7 <;> cases h <;> exact ⟨not_not.1 hr, ‹_›⟩
  · rintro ⟨hr, ho⟩
    cases i <;> simp [decode, hr, ho, opcode]

theorem exists_decode_eq_ok_iff {w : Word} :
    (∃ i, decode w = .ok i) ↔ rsvField w = 0 ∧ 1 ≤ (opField w).toNat ∧ (opField w).toNat ≤ 7 := by
  simp only [decode_eq_ok_iff, exists_and_left, exists_eq_opcode_iff]

theorem decode_eq_error_of_not_ok {w : Word} (h : ¬∃ i, decode w = .ok i) : ∃ e, decode w = .error e := by
  cases hd : decode w with
  | ok i => exact absurd ⟨i, hd⟩ h
  | error e => exact ⟨e, rfl⟩

/-- Settles O2: the decoder's condition on the two fields is that of being the command's word. -/
theorem decodeAndEncodeAgreeOnEveryWord : Obligations.DecodeAndEncodeAgreeOnEveryWord := fun _ _ =>
  decode_eq_ok_iff.trans eq_encode_iff.symm

theorem decode_encode (i : Instr) : decode (encode i) = .ok i := (decodeAndEncodeAgreeOnEveryWord _ _).2 rfl

/-- Settles O1: the words of R101 are those of `encode`, and each illegal word is run through the decoder. -/
theorem decoderReadsTheWordsOfTheTable : Obligations.DecoderReadsTheWordsOfTheTable :=
  ⟨decode_encode .enc, decode_encode .dec, decode_encode .encb, decode_encode .decb, decode_encode .sel,
    decode_encode .rel, decode_encode .clr, by decide, by decide, by decide, by decide, by decide⟩

end Sys2Proof

namespace Sys2Proof.Machine

/-! ### Acceptance and completion of a word -/

/-- An idle block accepts whatever word the host writes to CMD (43_commands.md R190). -/
theorem step_write_cmd {w : Word} {s : State} (hb : s.busy = false) (hm : hostMoves (.write 0x010 .four w) s) :
    step s = .next { accept w s with turns := s.turns.tail, replies := .write .okay :: s.replies } := by
  have he : ctrlWrite (0x010 : Offset).toNat w s = accept w s := ctrlWrite_cmd w hb
  rw [step_eq_applyXact hm, applyXact_write_ctrl w s (by decide) (by decide), he,
    replyOf_write_of_legal w s (by decide)]

/-- Settles O3: legality is what the decoder accepts, acceptance does not look at the word, and a word that is no
command completes with the error alone. -/
theorem illegalWordsAreAcceptedAndEndInIllegalCommand :
    Obligations.IllegalWordsAreAcceptedAndEndInIllegalCommand := by
  intro w s
  refine ⟨exists_decode_eq_ok_iff, fun hb hm => step_write_cmd hb hm, ?_⟩
  rintro hw rfl hm
  obtain ⟨e, he⟩ := decode_eq_error_of_not_ok hw
  exact (step_of_sequencerMoves hm).trans (completion_of_error (s := s.pop) he)

end Sys2Proof.Machine
end

section
/-! PROOFS. The lines WAIT and KEY of the host notation (30_encoding.md R107), as runs of the machine. -/

namespace Sys2Proof.Machine

/-! ### Runs -/

section
variable {M : Host.Core} {s t : M.State}

theorem run_succ (h : M.step s = .next t) (n : Nat) : M.run (n + 1) s = M.run n t := by
  rw [Host.Core.run, h]

theorem run_one (h : M.step s = .next t) : M.run 1 s = .next t := run_succ h 0

/-- A run in two parts: the second starts where the first ends. -/
theorem run_add {n : Nat} (h : M.run n s = .next t) (k : Nat) : M.run (n + k) s = M.run k t := by
  induction n generalizing s with
  | zero =>
    cases h
    rw [Nat.zero_add]
  | succ n ih =>
    rw [Nat.succ_add]
    cases hs : M.step s with
    | next u =>
      rw [run_succ hs] at h ⊢
      exact ih h
    | fault r => simp [Host.Core.run, hs] at h
    | refused r => simp [Host.Core.run, hs] at h

end

/-! ### The line WAIT -/

/-- Every command ends and leaves the moves to come and the answers given, which are the host's (60_exceptions.md
R226). -/
theorem exec_turns_replies (i : Instr) (s : State) :
    ∃ t, exec i s = .next t ∧ t.turns = s.turns ∧ t.replies = s.replies := by
  cases i with
  | enc =>
    obtain ⟨-, e⟩ | ⟨-, -, e⟩ | ⟨-, -, -, e⟩ | ⟨_, -, -, -, e⟩ := execEnc_cases s <;> exact ⟨_, e, rfl, rfl⟩
  | dec =>
    obtain ⟨-, e⟩ | ⟨-, -, e⟩ | ⟨-, -, -, e⟩ | ⟨_, -, -, -, -, e⟩ | ⟨_, _, -, -, -, -, -, e⟩ |
      ⟨_, _, _, -, -, -, -, -, e⟩ := execDec_cases s <;> exact ⟨_, e, rfl, rfl⟩
  | encb => obtain ⟨-, e⟩ | ⟨-, e⟩ := execEncb_cases s <;> exact ⟨_, e, rfl, rfl⟩
  | decb => obtain ⟨-, e⟩ | ⟨-, e⟩ := execDecb_cases s <;> exact ⟨_, e, rfl, rfl⟩
  | sel => obtain ⟨-, e⟩ | ⟨-, e⟩ := execSel_cases s <;> exact ⟨_, e, rfl, rfl⟩
  | rel => obtain ⟨-, e⟩ | ⟨-, e⟩ := execRel_cases s <;> exact ⟨_, e, rfl, rfl⟩
  | clr => exact ⟨_, execClr_eq s, rfl, rfl⟩

/-- Every completion, of a command or of an illegal word, leaves the block idle and the host's fields as they were. -/
theorem completion_ends (s : State) : ∃ t, completion s = .next t ∧ t.busy = false ∧ t.inReset = s.inReset ∧
    t.turns = s.turns ∧ t.replies = s.replies := by
  cases hd : decode s.pcmd with
  | ok i =>
    obtain ⟨t, ht, hturns, hreplies⟩ := exec_turns_replies i s
    have hc := (completion_of_ok hd).trans ht
    obtain ⟨e, hend, -⟩ := commandEnd_of_completion hc
    exact ⟨t, hc, hend.busy, hend.inReset, hturns, hreplies⟩
  | error e => exact ⟨_, completion_of_error hd, rfl, rfl, rfl, rfl⟩

/-- A read of STATUS answers its word and takes the turn, whatever BUSY is (20_memory.md R76, R79). -/
theorem step_read_status {s : State} {rest : List Turn} (hr : s.inReset = false) (ht : s.turns = r32 0x00C :: rest) :
    step s = .next { s with turns := rest, replies := .read (statusWord s) .okay :: s.replies } := by
  have hm : hostMoves (.read 0x00C .four) s := ⟨hr, by rw [ht]; rfl⟩
  rw [step_eq_applyXact hm, replyOf_read_ctrl s (by decide) (by decide), ht]
  rfl

/-- `n` reads of STATUS one after the other answer its one word `n` times. -/
theorem run_read_status {n : Nat} {s : State} {rest : List Turn} (hr : s.inReset = false)
    (ht : s.turns = List.replicate n (r32 0x00C) ++ rest) :
    Sys2Proof.core.run n s = .next { s with
      turns := rest, replies := List.replicate n (.read (statusWord s) .okay) ++ s.replies } := by
  induction n generalizing s with
  | zero =>
    obtain rfl : s.turns = rest := ht
    rfl
  | succ n ih =>
    have hread := step_read_status (rest := List.replicate n (r32 0x00C) ++ rest) hr ht
    rw [List.replicate_succ', List.append_assoc]
    exact (run_succ (M := Sys2Proof.core) hread n).trans (ih hr rfl)

/-- The end of a WAIT: the completion leaves the block idle, and so the last read of STATUS finds it. -/
theorem run_completion_read {s : State} {rest : List Turn} (hb : s.busy = true) (hr : s.inReset = false)
    (ht : s.turns = .core :: r32 0x00C :: rest) :
    ∃ (t : State) (v : Word), Sys2Proof.core.run 2 s = .next t ∧ t.turns = rest ∧
      t.replies = .read v .okay :: s.replies ∧ v.getLsbD 0 = false := by
  obtain ⟨u, hu, hidle, hreset, hturns, hreplies⟩ := completion_ends s.pop
  have hcore : step s = .next u := (step_of_sequencerMoves ⟨hb, hr, .inr (by rw [ht]; rfl)⟩).trans hu
  have hread := step_read_status (hreset.trans hr) (hturns.trans (congrArg List.tail ht))
  exact ⟨_, statusWord u, (run_succ (M := Sys2Proof.core) hcore 1).trans (run_one hread), rfl,
    congrArg (Reply.read (statusWord u) .okay :: ·) hreplies, (statusWord_fields u).1.trans hidle⟩

/-- Settles O59: the reads before the completion find the block as it was accepted, busy, and the last finds it
idle. -/
theorem waitReadsBusyUntilTheCompletion : Obligations.WaitReadsBusyUntilTheCompletion := by
  intro s n rest hb hr ht
  rw [expandLine, List.append_assoc] at ht
  have hpolls := run_read_status hr ht
  obtain ⟨t, v, hrun, hturns, hreplies, hv⟩ := run_completion_read (s := { s with
    turns := .core :: r32 0x00C :: rest, replies := List.replicate n (.read (statusWord s) .okay) ++ s.replies })
    hb hr rfl
  refine ⟨t, v, List.replicate n (statusWord s), (run_add hpolls 2).trans hrun, hturns, ?_, List.length_replicate,
    hv, ?_⟩
  · rw [hreplies, List.map_replicate, List.cons_append]
  · intro x hx
    rw [List.eq_of_mem_replicate hx, (statusWord_fields s).1, hb]

/-! ### The line KEY -/

/-- A 64-bit value is its eight bytes, the first the most significant (00_scope.md R8). -/
theorem be64_bytes8 (v : BitVec 64) : be64 (bytes8 v) = v := by
  apply BitVec.eq_of_toNat_eq
  have := v.isLt
  simp only [be64, bytes8, List.foldl, BitVec.toNat_ofNat, BitVec.extractLsb'_toNat, Nat.shiftRight_eq_div_pow]
  omega

/-- The bytes of a word in the order of their offsets (20_memory.md R73). -/
def laneBytes (w : Word) : List Byte :=
  [w.extractLsb' 0 8, w.extractLsb' 8 8, w.extractLsb' 16 8, w.extractLsb' 24 8]

theorem laneBytes_laneWord (b0 b1 b2 b3 : Byte) : laneBytes (laneWord b0 b1 b2 b3) = [b0, b1, b2, b3] := by
  have h0 : (laneWord b0 b1 b2 b3).extractLsb' 0 8 = b0 := BitVec.extractLsb'_append_eq_right
  have h1 : (laneWord b0 b1 b2 b3).extractLsb' 8 8 = b1 :=
    (BitVec.extractLsb'_append_eq_of_le le_rfl).trans BitVec.extractLsb'_append_eq_right
  have h2 : (laneWord b0 b1 b2 b3).extractLsb' 16 8 = b2 :=
    (BitVec.extractLsb'_append_eq_of_le (by omega)).trans
      ((BitVec.extractLsb'_append_eq_of_le le_rfl).trans BitVec.extractLsb'_append_eq_right)
  have h3 : (laneWord b0 b1 b2 b3).extractLsb' 24 8 = b3 :=
    (BitVec.extractLsb'_append_eq_of_le (by omega)).trans
      ((BitVec.extractLsb'_append_eq_of_le (by omega)).trans BitVec.extractLsb'_append_eq_left)
  rw [laneBytes, h0, h1, h2, h3]

/-- The two words of R107 hold the eight bytes of the value between them. -/
theorem laneBytes_low_high (v : BitVec 64) : laneBytes (laneLow v) ++ laneBytes (laneHigh v) = bytes8 v := by
  rw [laneLow, laneHigh, laneBytes_laneWord, laneBytes_laneWord]
  rfl

theorem Memory.writeBytes_append (m : Memory) (a : Nat) (bs cs : List Byte) :
    Memory.writeBytes m a (bs ++ cs) = Memory.writeBytes (Memory.writeBytes m a bs) (a + bs.length) cs := by
  induction bs generalizing m a with
  | nil => rfl
  | cons b bs ih => rw [List.cons_append, writeBytes_cons, ih, writeBytes_cons, List.length_cons, Nat.add_right_comm,
      Nat.add_assoc]

/-- An idle write of a word of KEYB stores its lanes in order (20_memory.md R73, R75). -/
theorem wword_keyb {i : Nat} {s : State} (w : Word) (hi : i ≤ 4) (hb : s.busy = false) :
    wword (0x030 + i) w s = memWrite .keyb i (laneBytes w) s := by
  have hbyte : ∀ j ≤ 7, ∀ b, ∀ t : State, t.busy = false → wbyte (0x030 + j) b t = memWrite .keyb j [b] t :=
    fun j hj b t ht => by rw [wbyte_keyb b ht (by omega) (by omega), Nat.add_sub_cancel_left]
  have hkeeps : ∀ a bs t, t.busy = false → (memWrite .keyb a bs t).busy = false := fun a bs t ht => ht
  simp only [wword, Nat.add_assoc]
  rw [hbyte i (by omega) _ _ hb, hbyte (i + 1) (by omega) _ _ (hkeeps _ _ _ hb),
    hbyte (i + 2) (by omega) _ _ (hkeeps _ _ _ (hkeeps _ _ _ hb)),
    hbyte (i + 3) (by omega) _ _ (hkeeps _ _ _ (hkeeps _ _ _ (hkeeps _ _ _ hb)))]
  rfl

/-- The host's step where it writes a word of KEYB and the block is idle. -/
theorem step_write_keyb {o : Offset} {i : Nat} {w : Word} {s : State} {rest : List Turn} (ho : o.toNat = 0x030 + i)
    (ha : i % 4 = 0) (hi : i ≤ 4) (hb : s.busy = false) (hr : s.inReset = false) (ht : s.turns = w32 o w :: rest) :
    step s = .next
      { memWrite .keyb i (laneBytes w) s with turns := rest, replies := .write .okay :: s.replies } := by
  have hm : hostMoves (.write o .four w) s := ⟨hr, by rw [ht]; rfl⟩
  rw [step_eq_applyXact hm, applyXact_write_word w s (by omega) (by omega),
    replyOf_write_of_legal w s (legalAccess_iff.2 (.inl ⟨rfl, by omega⟩)), ho, wword_keyb w hi hb, ht]
  rfl

/-- Settles O60: the two words fill KEYB with the eight bytes of the key, and these read back as the key. -/
theorem keyLineLoadsTheKey : Obligations.KeyLineLoadsTheKey := by
  intro s k rest hs hb hr ht
  have hlow := step_write_keyb (i := 0) rfl rfl (by omega) hb hr ht
  have hhigh := step_write_keyb (i := 4) (s := { memWrite .keyb 0 (laneBytes (laneLow k)) s with
    turns := w32 0x034 (laneHigh k) :: rest, replies := .write .okay :: s.replies }) rfl rfl le_rfl hb hr rfl
  refine ⟨_, (run_succ (M := Sys2Proof.core) hlow 1).trans (run_one hhigh), ?_, rfl⟩
  calc keyOperand _ = be64 (Memory.readBytes (Memory.writeBytes s.keyb 0 (bytes8 k)) 0 8) := by
        rw [← laneBytes_low_high, Memory.writeBytes_append]
        rfl
    _ = be64 (bytes8 k) := congrArg be64 (Memory.readBytes_writeBytes hs.keyb.1 0 (bytes8 k))
    _ = k := be64_bytes8 k

end Sys2Proof.Machine
end

section
/-! PROOFS. The key schedule (40_key_schedule.md): the rotations bring its halves back, the parity bits of a key have no
part in it, and the worked example. -/

namespace Sys2Proof.Machine

/-! ### Rotations -/

/-- The rotations of the rounds add up (40_key_schedule.md R124). -/
theorem rol28_rol28 (v : KeyHalf) (a b : Nat) : rol28 (rol28 v a) b = rol28 v (a + b) := by
  refine BitVec.eq_of_getMsbD_eq fun i hi => ?_
  have hmod : (b + i) % 28 < 28 := Nat.mod_lt _ (by decide)
  simp [rol28, BitVec.getMsbD_rotateLeft, hi, hmod, Nat.add_assoc]

/-- A rotation by full turns changes nothing. -/
theorem rol28_of_mod_eq_zero (v : KeyHalf) {k : Nat} (hk : k % 28 = 0) : rol28 v k = v :=
  BitVec.eq_of_getMsbD_eq fun i hi => by
    have hki : (k + i) % 28 = i := by omega
    simp [rol28, BitVec.getMsbD_rotateLeft, hi, hki]

/-- Rounds after one another rotate both halves by the sum of their amounts. -/
theorem foldl_rotateHalves (ks : List Nat) (cd : KeyHalf × KeyHalf) :
    ks.foldl rotateHalves cd = rotateHalves cd ks.sum := by
  induction ks generalizing cd with
  | nil => simp [rotateHalves, rol28_of_mod_eq_zero]
  | cons k ks ih => simp [ih, rotateHalves, rol28_rol28]

/-- Settles O49: the sixteen rotations are one by 28, a full turn of a half. -/
theorem rotationsBringTheHalvesBack : Obligations.RotationsBringTheHalvesBack := by
  refine ⟨rfl, rfl, fun cd => ?_⟩
  calc shifts.foldl rotateHalves cd = rotateHalves cd 28 := foldl_rotateHalves shifts cd
    _ = cd := Prod.ext (rol28_of_mod_eq_zero cd.1 rfl) (rol28_of_mod_eq_zero cd.2 rfl)

/-! ### Parity bits -/

/-- A permutation reads the positions its table lists and no others. -/
theorem permute_congr {n : Nat} (m : Nat) {T : List Nat} {v v' : BitVec n}
    (h : ∀ p ∈ T, v.getMsbD (p - 1) = v'.getMsbD (p - 1)) : permute m T v = permute m T v' :=
  congrArg (BitVec.ofNat m) (List.foldl_ext _ _ 0 fun acc p hp => by rw [h p hp])

/-- PC-1 lists no parity bit, positions 8, 16, ..., 64 of the key (40_key_schedule.md R121). -/
theorem pc1_lists_no_parity_bit : ∀ p ∈ pc1, 1 ≤ p ∧ p ≤ 64 ∧ p % 8 ≠ 0 := by decide

/-- Position `p` of a key is its bit `64 - p`, so PC-1 gives the same for keys that differ at parity bits alone. -/
theorem permute_pc1_eq {k k' : Key} (h : ∀ j, j < 64 → j % 8 ≠ 0 → k.getLsbD j = k'.getLsbD j) :
    permute 56 pc1 k = permute 56 pc1 k' :=
  permute_congr 56 fun p hp => by
    obtain ⟨hpos, hle, hpar⟩ := pc1_lists_no_parity_bit p hp
    rw [BitVec.getMsbD_eq_getLsbD, BitVec.getMsbD_eq_getLsbD, h _ (by omega) (by omega)]

theorem toList_deriveSchedule (k : Key) : (deriveSchedule k).toList = keyRounds shifts (keyHalves k) := rfl

theorem deriveSchedule_eq_of_permute_pc1_eq {k k' : Key} (h : permute 56 pc1 k = permute 56 pc1 k') :
    deriveSchedule k = deriveSchedule k' := by
  have hhalves : keyHalves k = keyHalves k' := by rw [keyHalves, keyHalves, h]
  exact Vector.toList_inj.1 (by rw [toList_deriveSchedule, toList_deriveSchedule, hhalves])

/-! ### The key length error -/

/-- A command ends with the first error of its line, and with no other. -/
theorem endsWith_exec_iff {i : Instr} {s : State} {e : Option CmdError} :
    EndsWith (exec i s) e ↔ firstError i s = e := by
  obtain ⟨t, ht, hend, -⟩ := exec_ends i s
  constructor
  · rintro ⟨u, hu, -, -, rfl⟩
    cases ht.symm.trans hu
    exact hend.errcode.symm
  · rintro rfl
    exact ⟨t, ht, hend.busy, hend.done, hend.errcode⟩

/-- InvalidKeyLength is raised for the length of the key, and so never for its value (40_key_schedule.md R120, R127). -/
theorem firstError_ne_invalidKeyLength (i : Instr) {s : State} (hk : s.keylen = 8) :
    firstError i s ≠ some .invalidKeyLength := by
  cases i with
  | enc => rw [firstError_enc, if_neg (not_not.2 hk)]; split_ifs <;> simp
  | dec => rw [firstError_dec, if_neg (not_not.2 hk)]; split_ifs <;> simp
  | encb | decb | clr => simp [firstError, hk]
  | sel | rel => rw [firstError]; split_ifs <;> simp

/-- Settles O50: the schedule sees a key through PC-1 alone, and KEYB has no part in the check of the key length, which is
the only one that ENCB and DECB make. -/
theorem parityBitsHaveNoEffect : Obligations.ParityBitsHaveNoEffect := by
  refine ⟨fun k k' h => ?_, fun s m hk => ⟨?_, ?_, fun i _ => ?_⟩⟩
  · have hsched := deriveSchedule_eq_of_permute_pc1_eq (permute_pc1_eq h)
    exact ⟨hsched, fun x dir => by rw [hsched]⟩
  · exact endsWith_exec_iff.2 (if_neg (not_not.2 hk))
  · exact endsWith_exec_iff.2 (if_neg (not_not.2 hk))
  · exact fun hends => firstError_ne_invalidKeyLength i (s := { s with keyb := m }) hk (endsWith_exec_iff.1 hends)

/-! ### The worked example -/

/-- C0 and D0 of the known-answer key (40_key_schedule.md R122). -/
theorem keyHalves_known_key : keyHalves 0x133457799BBCDFF1 = (0xF0CCAAF, 0x556678F) := by decide

/-- The schedule of the known-answer key, all sixteen subkeys (95_test_vectors.md V-KS-1). -/
theorem deriveSchedule_known_key : deriveSchedule 0x133457799BBCDFF1 =
    #v[0x1B02EFFC7072, 0x79AED9DBC9E5, 0x55FC8A42CF99, 0x72ADD6DB351D, 0x7CEC07EB53A8, 0x63A53E507B2F,
      0xEC84B7F618BC, 0xF78A3AC13BFB, 0xE0DBEBEDE781, 0xB1F347BA464F, 0x215FD3DED386, 0x7571F59467E9,
      0x97C5D1FABA41, 0x5F43B7F2E73A, 0xBF918D3D3F0A, 0xCB3D8B0E17F5] := by
  apply Vector.toList_inj.1
  rw [toList_deriveSchedule, keyHalves_known_key]
  decide +kernel

/-- Settles O46: the schedule is evaluated once, and each transform on its subkeys. -/
theorem knownAnswerVectorHolds : Obligations.KnownAnswerVectorHolds := by
  have hkey : be64 [0x13, 0x34, 0x57, 0x79, 0x9B, 0xBC, 0xDF, 0xF1] = 0x133457799BBCDFF1 := by decide
  unfold Obligations.KnownAnswerVectorHolds
  rw [hkey, deriveSchedule_known_key]
  refine ⟨rfl, rfl, ?_, ?_, ?_⟩
  · decide +kernel
  · decide +kernel
  · decide +kernel

end Sys2Proof.Machine
end

section
/-! PROOFS. The round engine (41_feistel.md): FP and IP undo each other, and the rounds in reverse order undo the
rounds. -/

namespace Sys2Proof.Machine

/-! ### FP and IP -/

/-- Permutations whose tables are inverse entry by entry undo each other. -/
theorem permute_permute_cancel {n : Nat} (T U : List Nat) (hT : T.length = n) (hU : U.length = n)
    (hinv : ∀ j, j < n → U.getD (T.getD j 0 - 1) 0 = j + 1) (v : BitVec n) : permute n T (permute n U v) = v := by
  refine BitVec.eq_of_getMsbD_eq fun j hj => ?_
  have hjT : j < T.length := by omega
  have hentry : U.getD (T[j] - 1) 0 = j + 1 := by rw [← hinv j hj, List.getD_eq_getElem T 0 hjT]
  -- The default of a table's look-up is 0, so an entry that is `j + 1` stands inside the table.
  have hlt : T[j] - 1 < U.length := by
    by_contra hge
    rw [List.getD_eq_default U 0 (not_lt.1 hge)] at hentry
    omega
  rw [List.getD_eq_getElem U 0 hlt] at hentry
  rw [getMsbD_permute n T _ hT hj, getMsbD_permute n U v hU (by omega), hentry, Nat.add_sub_cancel]

theorem fp_entry_of_ip : ∀ j, j < 64 → fp.getD (ip.getD j 0 - 1) 0 = j + 1 := by decide

theorem ip_entry_of_fp : ∀ j, j < 64 → ip.getD (fp.getD j 0 - 1) 0 = j + 1 := by decide

@[simp] theorem permute_fp_permute_ip (x : Block) : permute 64 fp (permute 64 ip x) = x :=
  permute_permute_cancel fp ip rfl rfl ip_entry_of_fp x

@[simp] theorem permute_ip_permute_fp (x : Block) : permute 64 ip (permute 64 fp x) = x :=
  permute_permute_cancel ip fp rfl rfl fp_entry_of_ip x

/-- Settles O48: the tables are compared entry by entry, and inverse tables give inverse permutations. -/
theorem finalPermutationInvertsInitialPermutation : Obligations.FinalPermutationInvertsInitialPermutation :=
  ⟨fp_entry_of_ip, fun x => ⟨permute_fp_permute_ip x, permute_ip_permute_fp x⟩⟩

/-! ### Rounds -/

/-- A round undoes itself between two exchanges of the halves: the right half passes through, so `f` is applied to the
same half both times (41_feistel.md R154). -/
theorem feistelRound_swap_feistelRound (h : Half × Half) (k : Subkey) :
    feistelRound (feistelRound h k).swap k = h.swap := by
  have hleft : h.1 ^^^ roundFn h.2 k ^^^ roundFn h.2 k = h.1 := by
    rw [BitVec.xor_assoc, BitVec.xor_self, BitVec.xor_zero]
  exact Prod.ext rfl hleft

/-- The rounds with their subkeys in reverse order undo the rounds, up to the exchange of the halves. -/
theorem foldl_reverse_feistelRound (ks : List Subkey) (h : Half × Half) :
    ks.reverse.foldl feistelRound (ks.foldl feistelRound h).swap = h.swap := by
  induction ks generalizing h with
  | nil => rfl
  | cons k ks ih =>
    rw [List.foldl_cons, List.reverse_cons, List.foldl_append, ih]
    exact feistelRound_swap_feistelRound h k

/-- The halves of a result are the last halves exchanged, for IP undoes FP (41_feistel.md R141). -/
theorem blockHalves_recombine (h : Half × Half) : blockHalves (recombine h) = h.swap := by
  rw [blockHalves, recombine, permute_ip_permute_fp]
  exact Prod.ext BitVec.extractLsb'_append_eq_left BitVec.extractLsb'_append_eq_right

/-- The halves of a block, exchanged, give the block again, for FP undoes IP. -/
theorem recombine_swap_blockHalves (x : Block) : recombine (blockHalves x).swap = x := by
  have hjoin : (blockHalves x).1 ++ (blockHalves x).2 = permute 64 ip x :=
    BitVec.extractLsb'_append_extractLsb' (w := 32) (len := 32)
  calc recombine (blockHalves x).swap = permute 64 fp (permute 64 ip x) := congrArg (permute 64 fp) hjoin
    _ = x := permute_fp_permute_ip x

/-- The transform with the subkeys in reverse order undoes the transform. -/
theorem transform_transform_of_reverse {sk : Schedule} {d d' : Dir}
    (hrev : subkeyOrder sk d' = (subkeyOrder sk d).reverse) (x : Block) : transform (transform x sk d) sk d' = x := by
  have hhalves : finalHalves (transform x sk d) sk d' = (blockHalves x).swap := by
    rw [finalHalves, transform, blockHalves_recombine, hrev]
    exact foldl_reverse_feistelRound (subkeyOrder sk d) (blockHalves x)
  rw [transform, hhalves, recombine_swap_blockHalves]

/-- Settles O47: each direction uses the subkeys in the reverse order of the other (41_feistel.md R155). -/
theorem decryptionInvertsEncryption : Obligations.DecryptionInvertsEncryption := by
  intro sk x
  have hencrypt : subkeyOrder sk .encrypt = (subkeyOrder sk .decrypt).reverse := (List.reverse_reverse sk.toList).symm
  exact ⟨transform_transform_of_reverse rfl x, transform_transform_of_reverse hencrypt x⟩

end Sys2Proof.Machine
end

section
/-! PROOFS. The formatter (42_formatter.md): each of its operations is undone by the one that stands against it, and so
DecryptText undoes EncryptText. -/

namespace Sys2Proof.Machine

/-! ### Padding (R170, R174) -/

theorem unpad_append_replicate (m : List Byte) {p : Nat} (h1 : 1 ≤ p) (h8 : p ≤ 8) :
    unpad (m ++ List.replicate p (BitVec.ofNat 8 p)) = some m := by
  have hval : (BitVec.ofNat 8 p).toNat = p := by rw [BitVec.toNat_ofNat]; omega
  have hlast : (m ++ List.replicate p (BitVec.ofNat 8 p)).getLast? = some (BitVec.ofNat 8 p) := by
    simp [List.getLast?_append, List.getLast?_replicate, show p ≠ 0 by omega]
  simp [unpad, hlast, hval, h1, h8]

theorem eq_append_replicate_of_unpad {t m : List Byte} (h8 : 8 ≤ t.length) (h : unpad t = some m) :
    ∃ p, 1 ≤ p ∧ p ≤ 8 ∧ t = m ++ List.replicate p (BitVec.ofNat 8 p) := by
  unfold unpad at h
  split at h
  · cases h
  · rename_i last _
    split at h
    · rename_i hp
      obtain ⟨hp1, hp8, hall⟩ := hp
      have hdrop : t.drop (t.length - last.toNat) = List.replicate last.toNat last :=
        List.eq_replicate_iff.2 ⟨by rw [List.length_drop]; omega, hall⟩
      cases h
      refine ⟨last.toNat, hp1, hp8, ?_⟩
      rw [BitVec.ofNat_toNat, BitVec.setWidth_eq, ← hdrop, List.take_append_drop]
    · cases h

/-- Settles O51: the last byte names how many bytes of its value must stand at the end. -/
theorem unpadAcceptsExactlyThePaddedSequences : Obligations.UnpadAcceptsExactlyThePaddedSequences := by
  refine fun t m h8 _ => ⟨eq_append_replicate_of_unpad h8, ?_⟩
  rintro ⟨p, hp1, hp8, rfl⟩
  exact unpad_append_replicate m hp1 hp8

theorem unpad_pad (m : List Byte) : unpad (pad m) = some m :=
  unpad_append_replicate m (by unfold padLen; omega) (by unfold padLen; omega)

/-! ### Blocks (R171) -/

/-- Eight bytes are the bytes of the value they make (00_scope.md R8). -/
theorem bytes8_be64 {bs : List Byte} (h : bs.length = 8) : bytes8 (be64 bs) = bs := by
  match bs, h with
  | [b0, b1, b2, b3, b4, b5, b6, b7], _ =>
    simp only [bytes8, be64, List.foldl, List.cons.injEq, BitVec.toNat_eq, BitVec.extractLsb'_toNat, BitVec.toNat_ofNat,
      Nat.shiftRight_eq_div_pow, and_true]
    omega

theorem join_blocksOf {nb : Nat} {t : List Byte} (h : t.length = 8 * nb) : join (blocksOf nb t) = t := by
  induction nb generalizing t with
  | zero => exact (List.eq_nil_of_length_eq_zero h).symm
  | succ nb ih =>
    have hrest : join (blocksOf nb (t.drop 8)) = t.drop 8 := ih (by rw [List.length_drop]; omega)
    have hfirst : bytes8 (be64 (t.take 8)) = t.take 8 := bytes8_be64 (by rw [List.length_take]; omega)
    calc join (blocksOf (nb + 1) t) = bytes8 (be64 (t.take 8)) ++ join (blocksOf nb (t.drop 8)) := rfl
      _ = t.take 8 ++ t.drop 8 := by rw [hfirst, hrest]
      _ = t := List.take_append_drop 8 t

theorem join_blocks {t : List Byte} (h : t.length % 8 = 0) : join (blocks t) = t := join_blocksOf (by omega)

@[simp] theorem blocksOf_join (ys : List Block) : blocksOf ys.length (join ys) = ys := by
  induction ys with
  | nil => rfl
  | cons y ys ih =>
    calc blocksOf (ys.length + 1) (join (y :: ys)) = be64 (bytes8 y) :: blocksOf ys.length (join ys) := rfl
      _ = y :: ys := by rw [be64_bytes8, ih]

@[simp] theorem blocks_join (ys : List Block) : blocks (join ys) = ys := by
  rw [blocks, length_join, Nat.mul_div_cancel_left _ (by omega), blocksOf_join]

/-! ### Hexadecimal digits (R172, R173) -/

theorem hexDigit_upperCase (d : BitVec 4) :
    (0x30 ≤ (hexDigit d).toNat ∧ (hexDigit d).toNat ≤ 0x39) ∨
    (0x41 ≤ (hexDigit d).toNat ∧ (hexDigit d).toNat ≤ 0x46) := by
  have := d.isLt
  unfold hexDigit
  split
  · left; simp only [BitVec.toNat_ofNat]; omega
  · right; simp only [BitVec.toNat_ofNat]; omega

theorem exists_eq_hexDigit_of_mem_hexEncode {ch : Byte} {c : List Byte} (h : ch ∈ hexEncode c) :
    ∃ d, ch = hexDigit d := by
  obtain ⟨b, _, hb⟩ := List.mem_flatMap.1 h
  rcases List.mem_pair.1 hb with rfl | rfl
  · exact ⟨_, rfl⟩
  · exact ⟨_, rfl⟩

/-- Settles O52: a text has two digits for each byte of its blocks, and every digit ENC writes is upper-case. -/
theorem encryptedTextIsUpperCaseHexOfWholeBlocks : Obligations.EncryptedTextIsUpperCaseHexOfWholeBlocks := by
  refine fun m sk => ⟨length_encryptText m sk, fun ch hch => ?_⟩
  obtain ⟨d, rfl⟩ := exists_eq_hexDigit_of_mem_hexEncode hch
  exact hexDigit_upperCase d

section
variable {ch : Byte}

theorem hexVal_of_decimal (h : 0x30 ≤ ch.toNat) (h' : ch.toNat ≤ 0x39) : hexVal ch = some (ch.toNat - 0x30) :=
  if_pos ⟨h, h'⟩

theorem hexVal_of_upper (h : 0x41 ≤ ch.toNat) (h' : ch.toNat ≤ 0x46) : hexVal ch = some (ch.toNat - 0x41 + 10) := by
  rw [hexVal, if_neg (by omega), if_pos ⟨h, h'⟩]

theorem hexVal_of_lower (h : 0x61 ≤ ch.toNat) (h' : ch.toNat ≤ 0x66) : hexVal ch = some (ch.toNat - 0x61 + 10) := by
  rw [hexVal, if_neg (by omega), if_neg (by omega), if_pos ⟨h, h'⟩]

theorem hexVal_lt {x : Nat} (h : hexVal ch = some x) : x < 16 := by
  have hd : HexDigit ch := by_contra fun hn => by rw [(hexVal_eq_none ch).2 hn] at h; cases h
  rcases hd with ⟨h1, h2⟩ | ⟨h1, h2⟩ | ⟨h1, h2⟩
  · rw [hexVal_of_decimal h1 h2] at h; cases h; omega
  · rw [hexVal_of_upper h1 h2] at h; cases h; omega
  · rw [hexVal_of_lower h1 h2] at h; cases h; omega

end

@[simp] theorem hexVal_hexDigit (d : BitVec 4) : hexVal (hexDigit d) = some d.toNat := by
  have := d.isLt
  unfold hexDigit
  split
  · have hval : (BitVec.ofNat 8 (0x30 + d.toNat)).toNat = 0x30 + d.toNat := by rw [BitVec.toNat_ofNat]; omega
    rw [hexVal_of_decimal (by omega) (by omega), hval, Nat.add_sub_cancel_left]
  · have hval : (BitVec.ofNat 8 (0x41 + (d.toNat - 10))).toNat = 0x41 + (d.toNat - 10) := by
      rw [BitVec.toNat_ofNat]; omega
    rw [hexVal_of_upper (by omega) (by omega), hval]
    congr 1; omega

/-! ### Decoding a text (R173, R182) -/

/-- The first two characters of a text are the digits of its first byte, and the others decode to the other bytes. -/
theorem hexDecode_cons_cons_eq_some {a b z : Byte} {rest c : List Byte} : hexDecode (a :: b :: rest) = some (z :: c) ↔
    (∃ x y, hexVal a = some x ∧ hexVal b = some y ∧ z.toNat = x * 16 + y) ∧ hexDecode rest = some c := by
  rw [hexDecode]
  split
  · rename_i x y out hx hy hr
    have hxlt := hexVal_lt hx
    have hylt := hexVal_lt hy
    have hz : BitVec.ofNat 8 (x * 16 + y) = z ↔ z.toNat = x * 16 + y := by
      rw [BitVec.toNat_eq, BitVec.toNat_ofNat, Nat.mod_eq_of_lt (by omega), eq_comm]
    simp [hx, hy, hr, hz]
  · rename_i hn
    refine ⟨nofun, ?_⟩
    rintro ⟨⟨x, y, hx, hy, -⟩, hr⟩
    exact (hn x y c hx hy hr).elim

theorem hexDecode_hexEncode (c : List Byte) : hexDecode (hexEncode c) = some c := by
  induction c with
  | nil => rfl
  | cons b c ih =>
    have hbyte : b.toNat = (b.extractLsb' 4 4).toNat * 16 + (b.extractLsb' 0 4).toNat := by
      have := b.isLt
      simp only [BitVec.extractLsb'_toNat, Nat.shiftRight_eq_div_pow]
      omega
    exact hexDecode_cons_cons_eq_some.2 ⟨⟨_, _, hexVal_hexDigit _, hexVal_hexDigit _, hbyte⟩, ih⟩

/-- Digits `2j` and `2j + 1` of the text `h` make byte `j` of `c`. -/
abbrev DecodesAt (h c : List Byte) (j : Nat) : Prop :=
  ∃ x y, hexVal (h.getD (2 * j) 0) = some x ∧ hexVal (h.getD (2 * j + 1) 0) = some y ∧ (c.getD j 0).toNat = x * 16 + y

theorem hexDecode_eq_some_iff {h c : List Byte} (he : h.length % 2 = 0) :
    hexDecode h = some c ↔ h.length = 2 * c.length ∧ ∀ j, j < c.length → DecodesAt h c j := by
  induction h using List.twoStepInduction generalizing c with
  | nil => cases c <;> simp [hexDecode]
  | singleton a => simp at he
  | cons_cons a b rest ih _ =>
    cases c with
    | nil => exact iff_of_false (fun h => nomatch length_hexDecode h) fun h => nomatch h.1
    | cons z c =>
      have hlen : (a :: b :: rest).length = 2 * (z :: c).length ↔ rest.length = 2 * c.length := by
        simp only [List.length_cons]; omega
      rw [hexDecode_cons_cons_eq_some, ih (by simp only [List.length_cons] at he; omega), hlen, List.length_cons,
        Nat.forall_lt_succ_left]
      exact and_left_comm

theorem hexDecode_map {f : Byte → Byte} (hf : ∀ ch, hexVal (f ch) = hexVal ch) (h : List Byte) :
    hexDecode (h.map f) = hexDecode h := by
  induction h using List.twoStepInduction with
  | nil => rfl
  | singleton a => rfl
  | cons_cons a b rest ih _ => rw [List.map_cons, List.map_cons, hexDecode, hexDecode, hf, hf, ih]

theorem decryptText_map {f : Byte → Byte} (hf : ∀ ch, hexVal (f ch) = hexVal ch) (h : List Byte) (sk : Schedule) :
    decryptText (h.map f) sk = decryptText h sk := by
  rw [decryptText, decryptText, decodeText, decodeText, List.length_map, hexDecode_map hf]

/-- An upper-case hexadecimal letter as its lower-case form, every other byte as it is (R182). -/
def lowerCase (ch : Byte) : Byte := if 0x41 ≤ ch.toNat ∧ ch.toNat ≤ 0x46 then ch + 0x20 else ch

theorem hexVal_lowerCase (ch : Byte) : hexVal (lowerCase ch) = hexVal ch := by
  by_cases h : 0x41 ≤ ch.toNat ∧ ch.toNat ≤ 0x46
  · have hval : (ch + 0x20).toNat = ch.toNat + 0x20 := by bv_omega
    rw [lowerCase, if_pos h, hexVal_of_upper h.1 h.2, hexVal_of_lower (by omega) (by omega), hval,
      show ch.toNat + 0x20 - 0x61 = ch.toNat - 0x41 by omega]
  · rw [lowerCase, if_neg h]

/-- Settles O53: a decoding reads the values of the characters alone, and these are the same in both letter cases. -/
theorem letterCaseDoesNotChangeADecoding : Obligations.LetterCaseDoesNotChangeADecoding :=
  ⟨fun ch => ⟨hexVal_of_decimal, hexVal_of_upper, hexVal_of_lower, (hexVal_eq_none ch).2⟩,
    fun _ _ => hexDecode_eq_some_iff,
    fun h sk => ⟨hexDecode_map hexVal_lowerCase h, decryptText_map hexVal_lowerCase h sk⟩⟩

/-! ### Decrypting an encrypted text (R180) -/

/-- An encrypted text has whole blocks and only digits, so it decodes to its cipher blocks (R176). -/
theorem decodeText_encryptText (m : List Byte) (sk : Schedule) :
    decodeText (encryptText m sk) = some (join ((blocks (pad m)).map fun x => transform x sk .encrypt)) := by
  have hlen := length_encryptText m sk
  rw [decodeText, if_neg (by omega), encryptText, hexDecode_hexEncode]

/-- DecryptText undoes EncryptText layer by layer: digits, blocks, cipher, blocks, padding. -/
theorem decryptText_encryptText (m : List Byte) (sk : Schedule) : decryptText (encryptText m sk) sk = some m := by
  have hpad := length_pad m
  have hcipher (x : Block) : transform (transform x sk .encrypt) sk .decrypt = x := (decryptionInvertsEncryption sk x).1
  calc decryptText (encryptText m sk) sk = unpad (join (blocks (pad m))) := by
        rw [decryptText_of_decodeText sk (decodeText_encryptText m sk), blocks_join, List.map_map]
        simp only [Function.comp_def, hcipher, List.map_id']
    _ = some m := by rw [join_blocks (by omega), unpad_pad]

/-- Settles O54: the text of a message up to MAX_MSG is as long as MAX_HEX at most, and decrypting undoes encrypting. -/
theorem decryptedTextOfAnEncryptedMessageIsTheMessage : Obligations.DecryptedTextOfAnEncryptedMessageIsTheMessage :=
  fun _ k m hc hm => ⟨decryptText_encryptText m (deriveSchedule k), Nat.le_of_lt_succ (length_encryptText_lt _ hc hm)⟩

/-! ### DEC on an encrypted text (R193) -/

theorem freeSlot_of_leastFree {s : State} {i : Nat} {sl : Slot} (h : LeastFree s i sl) : freeSlot s = some i := by
  obtain ⟨hi, hfree, hlive⟩ := h
  obtain ⟨hlt, rfl⟩ := List.getElem?_eq_some_iff.1 hi
  refine List.findIdx?_eq_some_iff_getElem.2 ⟨hlt, by simp [hfree], fun j hj => ?_⟩
  simp [hlive _ (List.mem_take_iff_getElem.2 ⟨j, by omega, rfl⟩)]

/-- DEC where none of its errors has its cause (43_commands.md R193). -/
theorem exec_dec_of_decryptText {s : State} {i : Nat} {m : List Byte} (hk : s.keylen = 8)
    (hl : s.mlen.toNat ≤ s.cfg.maxHex) (hf : freeSlot s = some i)
    (hd : decryptText (textOperand s) (deriveSchedule (keyOperand s)) = some m) :
    exec .dec s = .next (keyedEnd none (storeResult i m s)) := by
  rcases execDec_cases s with ⟨hk', -⟩ | ⟨-, hl', -⟩ | ⟨-, -, hc, -⟩ | ⟨c, -, -, -, hf', -⟩ |
    ⟨c, j, -, -, -, -, hd', -⟩ | ⟨c, j, n, -, -, -, hf', hd', he⟩
  · exact absurd hk hk'
  · omega
  · rw [decryptText, hc] at hd; cases hd
  · rw [hf'] at hf; cases hf
  · rw [hd'] at hd; cases hd
  · rw [hf'] at hf; cases hf
    rw [hd'] at hd; cases hd
    exact he

/-- A result's store holds its bytes and a NUL after them (42_formatter.md R179). -/
theorem Memory.readBytes_ofBytes (bs : List Byte) :
    Memory.readBytes (Memory.ofBytes bs) 0 (bs.length + 1) = bs ++ [0x00] := by
  refine List.ext_getElem (by simp) fun j hj _ => ?_
  rw [Memory.getElem_readBytes, Memory.read_ofBytes, Nat.zero_add, List.getElem_append]
  split
  · rename_i h; rw [List.getD_eq_getElem _ _ h]
  · rename_i h; rw [List.getD_eq_default _ _ (by omega)]; simp

/-- Settles O55: the text decrypts to the message, so DEC completes and allocates the least FREE slot with it. -/
theorem decReturnsTheMessageThatWasEncrypted : Obligations.DecReturnsTheMessageThatWasEncrypted := by
  intro s i sl m hc hk hm hfree hlen htext
  have hfits := length_encryptText_lt (deriveSchedule (keyOperand s)) hc hm
  have hd : decryptText (textOperand s) (deriveSchedule (keyOperand s)) = some m :=
    (congrArg (decryptText · _) htext).trans (decryptText_encryptText m _)
  have hlt : m.length < 2 ^ 16 := by
    have := Config.legal_iff.1 hc
    unfold Config.maxMsg at hm
    omega
  refine ⟨_, sl.allocated m, exec_dec_of_decryptText hk ?_ (freeSlot_of_leastFree hfree) hd, rfl, ?_, rfl, ?_, rfl,
    Memory.readBytes_ofBytes m⟩
  · exact hlen.trans_le (Nat.le_of_lt_succ hfits)
  · exact (List.getElem?_modify_eq _ i s.slots).trans (by rw [hfree.1]; rfl)
  · exact (BitVec.toNat_ofNat ..).trans (Nat.mod_eq_of_lt hlt)

end Sys2Proof.Machine
end

section
/-! PROOFS. How a command word is taken (43_commands.md R190), and what the operations on the slot file answer for the
commands that write it. -/

namespace Sys2Proof.Machine

/-! ### The acceptance of a word (R190) -/

theorem decode_of_decodeTableWord {nbits w : Nat} {i : Instr} (h : decodeTableWord nbits w = some i) :
    decode (BitVec.ofNat 32 (w % 2 ^ nbits)) = .ok i := by
  unfold decodeTableWord at h
  split at h
  · rename_i j hj
    cases h
    exact hj
  · cases h

/-- Settles O5: in the state `withFetchWord` makes the sequencer moves, and PCMD holds the word placed. -/
theorem placedWordRunsInTheNextStep : Obligations.PlacedWordRunsInTheNextStep := by
  intro s nbits w i h
  have hm : sequencerMoves (s.withFetchWord nbits w) := ⟨rfl, rfl, .inr rfl⟩
  exact (step_of_sequencerMoves hm).trans
    (completion_of_ok (s := (s.withFetchWord nbits w).pop) (decode_of_decodeTableWord h))

/-- Settles O6: while busy CMD is one of the inputs of a command, whose writes are dropped. -/
theorem acceptanceTakesTheWordAndNothingElse : Obligations.AcceptanceTakesTheWordAndNothingElse := by
  intro s w hm
  refine ⟨fun hb => step_write_cmd hb hm, fun hb => ?_⟩
  obtain ⟨hdropped, -⟩ := writesWhileBusyAreDroppedAndSetWerr s 0x010 .four w hb hm
  exact hdropped rfl (.inl rfl)

/-! ### Slots -/

theorem modify_eq_set_of_getElem? {α : Type} {l : List α} {i : Nat} {a : α} (f : α → α) (h : l[i]? = some a) :
    l.modify i f = l.set i (f a) := by
  rw [List.modify_eq_set_getElem?, h]
  rfl

theorem byteAt_slot_congr {s t : State} {j : Nat} (h : t.slots[j]? = s.slots[j]?) (a : Nat) :
    byteAt t (.slot j) a = byteAt s (.slot j) a := by
  simp only [byteAt, State.store, List.getD_eq_getElem?_getD, h]

/-- A handle whose slot is FREE is dead (10_state.md R47). -/
theorem live_eq_false_of_free {s : State} {h : Word}
    (hf : ∀ sl, s.slots[handleSlot h]? = some sl → sl.state = .free) : live s h = false := by
  by_contra hl
  obtain ⟨sl, hsl, hlive, -⟩ := live_iff.1 (Bool.not_eq_false _ ▸ hl)
  cases hlive.symm.trans (hf sl hsl)

theorem handleSlot_allocHandle {s : State} {i : Nat} (hi : i < 16) : handleSlot (allocHandle i s) = i :=
  handleSlot_handleOf _ hi

theorem handleGen_allocHandle {s : State} {i : Nat} {sl : Slot} (h : s.slots[i]? = some sl) :
    handleGen (allocHandle i s) = nextGen sl.gen := by
  rw [allocHandle, handleGen_handleOf, List.getD_eq_getElem?_getD, h, Option.getD_some]

/-- The result writes of ENC and DEC, with the slot they fill named (R200, 42_formatter.md R179). -/
theorem storeResult_eq {s : State} {i : Nat} {sl : Slot} (text : List Byte) (h : s.slots[i]? = some sl) :
    storeResult i text s = { s with slots := s.slots.set i (sl.allocated text)
                                    rhandle := handleOf (nextGen sl.gen) i
                                    rlen := BitVec.ofNat 16 text.length } := by
  simp only [storeResult, alloc, allocHandle, modify_eq_set_of_getElem? _ h, List.getD_eq_getElem?_getD, h,
    Option.getD_some]

end Sys2Proof.Machine
end

section
/-! PROOFS. The boundary commands ENC and DEC (43_commands.md R192, R193): their results, their frame, and the handles
they return. -/

namespace Sys2Proof.Machine

/-- ENC where none of its errors has its cause (R192). -/
theorem exec_enc_of_fits {s : State} {i : Nat} (hk : s.keylen = 8) (hl : s.mlen.toNat ≤ s.cfg.maxMsg)
    (hf : freeSlot s = some i) : exec .enc s = .next
      (keyedEnd none (storeResult i (encryptText (textOperand s) (deriveSchedule (keyOperand s))) s)) := by
  rcases execEnc_cases s with ⟨hk', -⟩ | ⟨-, hl', -⟩ | ⟨-, -, hf', -⟩ | ⟨j, -, -, hf', e⟩
  · exact absurd hk hk'
  · omega
  · rw [hf'] at hf; cases hf
  · rw [hf'] at hf; cases hf
    exact e

/-- Settles O12: the FREE slot named is the one ENC finds, and its store is made from the text. -/
theorem encCompletesWithTheHexTextInTheLeastFreeSlot : Obligations.EncCompletesWithTheHexTextInTheLeastFreeSlot := by
  rintro s i sl text hk hl hfree rfl
  refine ⟨nextGen sl.gen, Memory.ofBytes _, ?_, rfl, Memory.wf_ofBytesFrom 0 _, Memory.read_ofBytes _⟩
  rw [exec_enc_of_fits hk hl (freeSlot_of_leastFree hfree), storeResult_eq _ hfree.1]
  rfl

/-- Settles O13: the same with the message the text decrypts to. -/
theorem decCompletesWithTheMessageInTheLeastFreeSlot : Obligations.DecCompletesWithTheMessageInTheLeastFreeSlot := by
  intro s i sl msg hk hl hfree hd
  refine ⟨nextGen sl.gen, Memory.ofBytes msg, ?_, rfl, Memory.wf_ofBytesFrom 0 _, Memory.read_ofBytes _⟩
  rw [exec_dec_of_decryptText hk hl (freeSlot_of_leastFree hfree) hd, storeResult_eq _ hfree.1]
  rfl

/-- ENC and DEC end in one of two ways: with an error and no result, or with a result in the least FREE slot. -/
theorem exec_boundary_cases {i : Instr} (hi : i = .enc ∨ i = .dec) (s : State) :
    (∃ e, exec i s = .next (keyedEnd (some e) (clearResult s))) ∨
    ∃ j text, freeSlot s = some j ∧ exec i s = .next (keyedEnd none (storeResult j text s)) := by
  rcases hi with rfl | rfl
  · rcases execEnc_cases s with ⟨-, e⟩ | ⟨-, -, e⟩ | ⟨-, -, -, e⟩ | ⟨j, -, -, hf, e⟩
    · exact .inl ⟨_, e⟩
    · exact .inl ⟨_, e⟩
    · exact .inl ⟨_, e⟩
    · exact .inr ⟨j, _, hf, e⟩
  · rcases execDec_cases s with ⟨-, e⟩ | ⟨-, -, e⟩ | ⟨-, -, -, e⟩ | ⟨_, -, -, -, -, e⟩ | ⟨_, _, -, -, -, -, -, e⟩ |
      ⟨_, j, _, -, -, -, hf, -, e⟩
    · exact .inl ⟨_, e⟩
    · exact .inl ⟨_, e⟩
    · exact .inl ⟨_, e⟩
    · exact .inl ⟨_, e⟩
    · exact .inl ⟨_, e⟩
    · exact .inr ⟨j, _, hf, e⟩

/-- Settles O14: an error writes no slot, and a result the least FREE one alone. -/
theorem boundaryCommandsLeaveTheRestUnchanged : Obligations.BoundaryCommandsLeaveTheRestUnchanged := by
  intro i s t hi ht
  rcases exec_boundary_cases hi s with ⟨e, he⟩ | ⟨k, text, hf, he⟩ <;> cases he.symm.trans ht
  · refine ⟨rfl, rfl, rfl, rfl, rfl, rfl, rfl, rfl, rfl, rfl, rfl, fun _ _ => rfl, fun sp a hkeyb _ => ?_⟩
    cases sp with
    | keyb => exact absurd rfl hkeyb
    | _ => rfl
  · have hslots : ∀ j, freeSlot s ≠ some j → (s.slots.modify k (Slot.allocated text))[j]? = s.slots[j]? := fun j hj =>
      List.getElem?_modify_ne _ _ fun hkj => hj (hkj ▸ hf)
    refine ⟨rfl, rfl, rfl, rfl, rfl, rfl, rfl, rfl, rfl, rfl, rfl, hslots, fun sp a hkeyb hslot => ?_⟩
    cases sp with
    | keyb => exact absurd rfl hkeyb
    | slot j => exact byteAt_slot_congr (hslots j fun hj => hslot j hj rfl) a
    | _ => rfl

/-- Settles O26: the new handle has the next generation, which is not 0, of a slot that was FREE, where no live handle
is. -/
theorem newHandlesAreFreshAndLive : Obligations.NewHandlesAreFreshAndLive := by
  intro i s t hinv hi ht herr
  rcases exec_boundary_cases hi s with ⟨e, he⟩ | ⟨j, text, hf, he⟩ <;> cases he.symm.trans ht
  · cases herr
  obtain ⟨hj, hfree, -⟩ := freeSlot_some hf
  have hsl : s.slots[j]? = some s.slots[j] := List.getElem?_eq_getElem hj
  have hslot : handleSlot (allocHandle j s) = j := by
    obtain ⟨-, -, -, hn⟩ := Config.legal_iff.1 hinv.cfg
    have := hinv.count
    exact handleSlot_allocHandle (by omega)
  have hgen := handleGen_allocHandle hsl
  rw [keyedEnd_rhandle, storeResult_rhandle]
  refine ⟨live_iff.2 ⟨s.slots[j].allocated text, ?_, rfl, hgen.symm⟩, live_eq_false_of_free fun sl hl => ?_,
    fun h0 => ?_, fun h hl => ?_⟩
  · rw [hslot, keyedEnd_slots, storeResult_slots, List.getElem?_modify_eq, hsl]
    rfl
  · rw [hslot, hsl] at hl
    cases hl
    exact hfree
  · rw [h0] at hgen
    exact nextGen_ne_zero _ hgen.symm
  · exact (live_of_modify rfl (freeSlot_ne_of_live hf hl)).trans hl

end Sys2Proof.Machine
end

section
/-! PROOFS. The frame of every keyed command (43_commands.md R191), and the raw commands ENCB and DECB inside it (R194,
R195). -/

namespace Sys2Proof.Machine

/-! ### Every keyed command (R191) -/

/-- A keyed command ends with the key consumed whatever its body answers; a wrong key length is the first error. -/
theorem keyed_eq_keyedEnd (onRaise : State → State) (body : Key → State → Except CmdError State) (s : State) :
    ∃ e t, keyed onRaise body s = .next (keyedEnd e t) ∧
      (s.keylen ≠ 8 → e = some .invalidKeyLength ∧ t = onRaise s) := by
  by_cases hk : s.keylen = 8
  · rw [keyed_eq, if_pos hk]
    cases body (keyOperand s) s with
    | ok t => exact ⟨_, t, rfl, absurd hk⟩
    | error e => exact ⟨_, onRaise s, rfl, absurd hk⟩
  · rw [keyed_eq, if_neg hk]
    exact ⟨_, _, rfl, fun _ => ⟨rfl, rfl⟩⟩

/-- What a keyed command writes on an error is no slot. -/
theorem exec_eq_keyed {i : Instr} (hi : i.keyed = true) (s : State) :
    ∃ onRaise body, exec i s = keyed onRaise body s ∧ (onRaise s).slots = s.slots := by
  cases i with
  | enc => exact ⟨clearResult, encBody, rfl, rfl⟩
  | dec => exact ⟨clearResult, decBody, rfl, rfl⟩
  | encb => exact ⟨clearDout, rawBody .encrypt, rfl, rfl⟩
  | decb => exact ⟨clearDout, rawBody .decrypt, rfl, rfl⟩
  | sel | rel | clr => cases hi

/-- Settles O15: whatever the body of a keyed command does, the frame around it clears the key and the hidden registers,
and checks the key length before it. -/
theorem keyedCommandsConsumeTheKeyInEveryOutcome : Obligations.KeyedCommandsConsumeTheKeyInEveryOutcome := by
  intro i s hi
  obtain ⟨onRaise, body, hexec, hslots⟩ := exec_eq_keyed hi s
  obtain ⟨e, t, hkeyed, herr⟩ := keyed_eq_keyedEnd onRaise body s
  refine ⟨_, hexec.trans hkeyed, fun _ => rfl, rfl, rfl, fun hk => ?_⟩
  obtain ⟨rfl, rfl⟩ := herr hk
  exact ⟨rfl, hslots⟩

/-! ### ENCB and DECB (R194, R195) -/

/-- Eight bytes written from index 0 up read back, and leave every byte above them. -/
theorem read_writeBytes_bytes8 {m : Memory} (hm : Memory.wf m) (x : Block) :
    Memory.readBytes (Memory.writeBytes m 0 (bytes8 x)) 0 8 = bytes8 x ∧
    ∀ a, 8 ≤ a → Memory.read (Memory.writeBytes m 0 (bytes8 x)) a = Memory.read m a := by
  refine ⟨Memory.readBytes_writeBytes hm 0 (bytes8 x), fun a ha => ?_⟩
  rw [Memory.read_writeBytes hm, length_bytes8, if_neg (by omega)]

/-- Settles O18: by what ENCB does for either key length. -/
theorem encbFollowsItsRule : Obligations.EncbFollowsItsRule := by
  refine ⟨decode_encode .encb, fun s hm => ?_⟩
  rcases execEncb_cases s with ⟨hk, e⟩ | ⟨hk, e⟩
  · exact ⟨fun hk8 => absurd hk8 hk, fun _ => e⟩
  · exact ⟨fun _ => ⟨_, e, read_writeBytes_bytes8 hm _⟩, absurd hk⟩

/-- Settles O19: by what DECB does for either key length. -/
theorem decbFollowsItsRule : Obligations.DecbFollowsItsRule := by
  refine ⟨decode_encode .decb, fun s hm => ?_⟩
  rcases execDecb_cases s with ⟨hk, e⟩ | ⟨hk, e⟩
  · exact ⟨fun hk8 => absurd hk8 hk, fun _ => e⟩
  · exact ⟨fun _ => ⟨_, e, read_writeBytes_bytes8 hm _⟩, absurd hk⟩

/-- ENCB and DECB end as keyed commands with nothing else written but DOUT. -/
theorem exec_raw_eq {i : Instr} (hi : i = .encb ∨ i = .decb) (s : State) :
    ∃ e m, exec i s = .next (keyedEnd e { s with dout := m }) := by
  rcases hi with rfl | rfl
  · rcases execEncb_cases s with ⟨-, e⟩ | ⟨-, e⟩ <;> exact ⟨_, _, e⟩
  · rcases execDecb_cases s with ⟨-, e⟩ | ⟨-, e⟩ <;> exact ⟨_, _, e⟩

/-- Settles O20: DOUT and what ends every keyed command is all they write. -/
theorem rawCommandsLeaveTheRestUnchanged : Obligations.RawCommandsLeaveTheRestUnchanged := by
  intro i s t hi ht
  obtain ⟨e, m, he⟩ := exec_raw_eq hi s
  cases he.symm.trans ht
  refine ⟨rfl, rfl, rfl, rfl, rfl, rfl, rfl, rfl, rfl, rfl, rfl, rfl, rfl, rfl, fun sp a hkeyb hdout => ?_⟩
  cases sp with
  | keyb => exact absurd rfl hkeyb
  | dout => exact absurd rfl hdout
  | _ => rfl

end Sys2Proof.Machine
end

section
/-! PROOFS. The handle commands SEL and REL and the system command CLR (43_commands.md R196 to R198). -/

namespace Sys2Proof.Machine

/-! ### SEL and REL (R196, R197) -/

/-- Settles O21: by the two outcomes of SEL. -/
theorem selFollowsItsRule : Obligations.SelFollowsItsRule := by
  refine ⟨decode_encode .sel, fun s => ?_⟩
  rcases execSel_cases s with ⟨hl, e⟩ | ⟨hl, e⟩
  · exact ⟨fun _ => e, by simp [hl]⟩
  · exact ⟨by simp [hl], fun _ => e⟩

theorem deselect_eq (h : Word) (s : State) :
    deselect h s = { s with selv := if s.selv = true ∧ s.selh = h then false else s.selv } := by
  unfold deselect
  congr
  by_cases hh : s.selh = h <;> cases s.selv <;> simp [hh]

/-- Settles O22: by the two outcomes of REL, a handle being live where its slot is LIVE with its generation. -/
theorem relFollowsItsRule : Obligations.RelFollowsItsRule := by
  refine ⟨decode_encode .rel, fun s => ?_⟩
  rcases execRel_cases s with ⟨hl, e⟩ | ⟨hl, e⟩
  · refine ⟨fun sl hsl _ _ => ?_, by simp [hl]⟩
    rw [e, deselect_eq, releaseSlot, modify_eq_set_of_getElem? _ hsl]
    rfl
  · refine ⟨fun sl hsl hstate hgen => ?_, fun _ => e⟩
    cases hl.symm.trans (live_iff.2 ⟨sl, hsl, hstate, hgen⟩)

/-- Settles O23: SEL writes the selection alone; REL writes the slot of a live handle, and otherwise STATUS alone. -/
theorem handleCommandsLeaveTheRestUnchanged : Obligations.HandleCommandsLeaveTheRestUnchanged := by
  rintro i s t (rfl | rfl) ht
  · rcases execSel_cases s with ⟨-, e⟩ | ⟨-, e⟩ <;> cases e.symm.trans ht <;>
      exact ⟨rfl, rfl, rfl, rfl, rfl, rfl, rfl, rfl, rfl, rfl, rfl, rfl, rfl, nofun, fun _ _ => rfl,
        fun _ _ _ => rfl⟩
  · rcases execRel_cases s with ⟨hl, e⟩ | ⟨-, e⟩ <;> cases e.symm.trans ht
    · have hslots : ∀ j, j ≠ handleSlot s.harg →
          (s.slots.modify (handleSlot s.harg) Slot.released)[j]? = s.slots[j]? := fun j hj =>
        List.getElem?_modify_ne _ _ hj.symm
      refine ⟨rfl, rfl, rfl, rfl, rfl, rfl, rfl, rfl, rfl, rfl, rfl, rfl, rfl, fun _ => rfl, ?_, ?_⟩
      · rintro j (hi | hdead | hj)
        · cases hi
        · cases hl.symm.trans hdead
        · exact hslots j hj
      · rintro sp a (hi | hdead | hsp)
        · cases hi
        · cases hl.symm.trans hdead
        · cases sp with
          | slot j => exact byteAt_slot_congr (hslots j fun hj => hsp (hj ▸ rfl)) a
          | _ => rfl
    · exact ⟨rfl, rfl, rfl, rfl, rfl, rfl, rfl, rfl, rfl, rfl, rfl, rfl, rfl, fun _ => rfl, fun _ _ => rfl,
        fun _ _ _ => rfl⟩

/-- After REL the handle it was given is dead: its slot is released, or it was dead before. -/
theorem live_harg_of_exec_rel {s t : State} (ht : exec .rel s = .next t) : live t s.harg = false := by
  rcases execRel_cases s with ⟨-, e⟩ | ⟨hl, e⟩ <;> cases e.symm.trans ht
  · refine live_eq_false_of_free fun sl hsl => ?_
    obtain ⟨sl', -, rfl⟩ := Option.map_eq_some_iff.1 ((List.getElem?_modify_eq ..).symm.trans hsl)
    rfl
  · exact hl

/-- Settles O24: the slots of other handles are in the frame of REL. -/
theorem releaseKillsItsHandleAndNoOther : Obligations.ReleaseKillsItsHandleAndNoOther := by
  intro s t ht
  refine ⟨live_harg_of_exec_rel ht, fun h hne => ?_⟩
  obtain ⟨-, -, -, -, -, -, -, -, -, -, -, -, -, -, hslots, hbytes⟩ :=
    handleCommandsLeaveTheRestUnchanged .rel s t (.inr rfl) ht
  refine ⟨?_, fun a => hbytes _ a (.inr (.inr fun hsp => hne (Space.slot.inj hsp)))⟩
  rw [live, live, hslots _ (.inr (.inr hne))]

/-! ### CLR (R198) -/

theorem clearBlock_byteAt (s : State) (sp : Space) (a : Nat) : byteAt (clearBlock s) sp a = 0x00 := by
  cases sp with
  | slot i =>
    have hbuf : (clearBlock s).store (.slot i) = [] := by
      rw [State.store, clearBlock_slots]
      exact congrArg Slot.buf (List.getD_map (d := Slot.initial) ..)
    rw [byteAt, hbuf]
    rfl
  | _ => rfl

/-- Settles O25: every slot of the cleared block is FREE and empty, so no handle is live and every byte is 0x00. -/
theorem clrFollowsItsRule : Obligations.ClrFollowsItsRule := by
  refine ⟨decode_encode .clr, fun s => ⟨_, execClr_eq s, rfl, fun h => ?_, fun sp a => ?_, Bool.and_true _⟩⟩
  · refine live_eq_false_of_free fun sl hsl => ?_
    obtain ⟨sl', -, rfl⟩ := List.mem_map.1 (List.mem_of_getElem? hsl)
    rfl
  · exact clearBlock_byteAt s sp a

end Sys2Proof.Machine
end

section
/-! PROOFS. What IBUF holds at and above MLEN has no part in any command (43_commands.md R192;
93_implementation_defined.md U10): each ends alike from states that differ there. -/

namespace Sys2Proof.Machine

theorem textOperand_setIbuf {s : State} {m : Memory}
    (h : ∀ a, a < s.mlen.toNat → Memory.read m a = Memory.read s.ibuf a) :
    textOperand { s with ibuf := m } = textOperand s := by
  refine List.map_congr_left fun a ha => ?_
  rw [Nat.zero_add]
  exact h a (List.mem_range.1 ha)

section
variable {s : State} {m : Memory} (h : textOperand { s with ibuf := m } = textOperand s)
include h

/-- ENC's body reads IBUF as its text alone, and does not write it. -/
theorem encBody_setIbuf (k : Key) :
    encBody k { s with ibuf := m } = (encBody k s).map fun t => { t with ibuf := m } := by
  have hf : freeSlot { s with ibuf := m } = freeSlot s := rfl
  simp only [encBody, h, hf]
  split
  · rfl
  · cases freeSlot s <;> rfl

/-- DEC's body likewise. -/
theorem decBody_setIbuf (k : Key) :
    decBody k { s with ibuf := m } = (decBody k s).map fun t => { t with ibuf := m } := by
  have hf : freeSlot { s with ibuf := m } = freeSlot s := rfl
  simp only [decBody, h, hf]
  split
  · rfl
  · cases decodeText (textOperand s) with
    | none => rfl
    | some c =>
      cases freeSlot s with
      | none => rfl
      | some i =>
        simp only [runEngine_scratch]
        cases unpad (join ((blocks c).map fun x => transform x (deriveSchedule k) .decrypt)) <;> rfl

end

theorem rawBody_setIbuf (d : Dir) (k : Key) (s : State) (m : Memory) :
    rawBody d k { s with ibuf := m } = (rawBody d k s).map fun t => { t with ibuf := m } := rfl

/-- A keyed command whose body keeps IBUF and does not read it otherwise ends alike with another one. -/
theorem keyed_setIbuf {onRaise : State → State} {body : Key → State → Except CmdError State} {s t : State} {m : Memory}
    (hraise : onRaise { s with ibuf := m } = { onRaise s with ibuf := m })
    (hbody : ∀ k, body k { s with ibuf := m } = (body k s).map fun t => { t with ibuf := m })
    (ht : keyed onRaise body s = .next t) :
    keyed onRaise body { s with ibuf := m } = .next { t with ibuf := m } := by
  have hkey : keyOperand { s with ibuf := m } = keyOperand s := rfl
  rw [keyed_eq] at ht ⊢
  cases ht
  rw [hbody, hkey, hraise]
  dsimp only
  split
  · cases body (keyOperand s) s <;> rfl
  · rfl

/-- Settles O45: IBUF is read as the text below MLEN and by ENC and DEC alone, and written by CLR alone; whether a handle
is live, which is what SEL and REL test, does not depend on it. -/
theorem bytesAtAndAboveMlenAreNotRead : Obligations.BytesAtAndAboveMlenAreNotRead := by
  intro i s t m h ht
  have htext := textOperand_setIbuf h
  cases i with
  | enc => exact keyed_setIbuf rfl (encBody_setIbuf htext) ht
  | dec => exact keyed_setIbuf rfl (decBody_setIbuf htext) ht
  | encb => exact keyed_setIbuf rfl (rawBody_setIbuf .encrypt · s m) ht
  | decb => exact keyed_setIbuf rfl (rawBody_setIbuf .decrypt · s m) ht
  | sel =>
    rcases execSel_cases s with ⟨hl, e⟩ | ⟨hl, e⟩ <;> cases e.symm.trans ht
    · exact if_pos hl
    · exact if_neg (ne_true_of_eq_false hl)
  | rel =>
    rcases execRel_cases s with ⟨hl, e⟩ | ⟨hl, e⟩ <;> cases e.symm.trans ht
    · exact if_pos hl
    · exact if_neg (ne_true_of_eq_false hl)
  | clr =>
    cases (execClr_eq s).symm.trans ht
    rfl

end Sys2Proof.Machine
end

section
/-! PROOFS. How commands end (60_exceptions.md R220, R223, R224, R226): the completion step, the one error a command is
answered with, and what an error leaves of the state. -/

namespace Sys2Proof.Machine

/-! ### The completion step (R226) -/

/-- Settles O4: where the sequencer moves the step is the completion, which is of the command that PCMD decodes to. -/
theorem completionStepRunsTheCommandInPcmd : Obligations.CompletionStepRunsTheCommandInPcmd := by
  rintro s i ⟨hm, hd⟩
  exact (step_of_sequencerMoves hm).trans (completion_of_ok (s := s.pop) hd)

/-- Settles O7: every completion ends its command; CLR's leaves STATUS cleared but for DONE, an illegal word's the code
of its own. -/
theorem everyCompletionEndsTheCommand : Obligations.EveryCompletionEndsTheCommand := by
  intro s hm
  rw [step_of_sequencerMoves hm]
  obtain ⟨t, ht, -⟩ := completion_ends s.pop
  obtain ⟨e, hend, hwerr⟩ := commandEnd_of_completion ht
  refine ⟨t, ht, hend.busy, hend.done, hwerr, fun hd => ?_, fun ⟨e', hd⟩ => ?_⟩
  · cases ((completion_of_ok (s := s.pop) hd).trans (execClr_eq _)).symm.trans ht
    exact ⟨rfl, rfl⟩
  · cases (completion_of_error (s := s.pop) hd).symm.trans ht
    rfl

/-- The sequencer's turn never stops the machine: it completes a command, or it changes nothing. -/
theorem exists_coreTurn_eq_next (s : State) : ∃ t, coreTurn s = .next t := by
  by_cases h : (s.busy && !s.inReset) = true
  · obtain ⟨t, ht, -⟩ := completion_ends s
    exact ⟨t, (if_pos h).trans ht⟩
  · exact ⟨s, if_neg h⟩

/-- Settles O8: of the turns only the host's, held in reset, faults, and only the release by another path is refused. -/
theorem onlyTheOutsideWorldStopsTheMachine : Obligations.OnlyTheOutsideWorldStopsTheMachine := by
  intro s
  simp only [← nextTurn_eq_iff, ne_eq, reduceCtorEq, not_false_eq_true]
  rw [step_eq_takeTurn]
  cases nextTurn s with
  | core =>
    obtain ⟨t, ht⟩ := exists_coreTurn_eq_next s.pop
    simp [takeTurn, ht]
  | host x => cases hr : s.inReset <;> simp [takeTurn, hr]
  | assertReset => simp [takeTurn]
  | deassertReset => simp [takeTurn]
  | freeElsewhere h => simp [takeTurn, @eq_comm _ Refusal.crossAllocatorRelease]

/-! ### The order of the errors (R223) -/

/-- A text of right structure and characters decodes (42_formatter.md R173, R176). -/
theorem decodeText_ne_none {s : State} (h0 : s.mlen ≠ 0) (h16 : s.mlen.toNat % 16 = 0)
    (hhex : ∀ ch ∈ memRead .ibuf 0 s.mlen.toNat s, HexDigit ch) : decodeText (textOperand s) ≠ none := by
  rw [ne_eq, decodeText_eq_none_iff]
  rintro (h | h | ⟨ch, hmem, h⟩)
  · exact h0 h
  · exact h h16
  · exact h (hhex ch hmem)

/-- Settles O16: a command ends with its `firstError`, and each clause is one path through the checks of its line. -/
theorem theFirstErrorInPriorityOrderIsReported : Obligations.TheFirstErrorInPriorityOrderIsReported := by
  refine ⟨fun i s hi hk => endsWith_exec_iff.2 (firstError_keylen hi hk), fun s hk hm => ?_, fun s hk hm hn => ?_,
    fun s hk hm => ?_, fun s hk hm hbad => ?_, fun s hk hm h0 h16 hhex hn => ?_, fun s hk hm h0 h16 hhex hn hd => ?_,
    fun s hl => ?_, fun s hl => ?_, fun s e he => ⟨_, completion_of_error he, rfl, rfl, rfl⟩⟩
  all_goals rw [endsWith_exec_iff]
  · simp [firstError_enc, hk, hm]
  · simp [firstError_enc, hk, hm.not_gt, freeSlot_eq_none_iff.2 hn]
  · simp [firstError_dec, hk, hm]
  · simp [firstError_dec, hk, hm.not_gt, (decodeText_eq_none_iff s).2 hbad]
  · simp [firstError_dec, hk, hm.not_gt, decodeText_ne_none h0 h16 hhex, freeSlot_eq_none_iff.2 hn]
  · have hpad : decryptText (textOperand s) (deriveSchedule (keyOperand s)) = none := hd
    simp [firstError_dec, hk, hm.not_gt, decodeText_ne_none h0 h16 hhex, mt freeSlot_eq_none_iff.1 hn, hpad]
  · simp [firstError, hl]
  · simp [firstError, hl]

/-! ### What an error leaves of the state (R224) -/

/-- An erring ENC or DEC clears its result registers and consumes the key. -/
theorem eq_of_exec_boundary_errcode {i : Instr} {s t : State} {e : CmdError} (hi : i = .enc ∨ i = .dec)
    (ht : exec i s = .next t) (he : t.errcode = some e) : t = keyedEnd (some e) (clearResult s) := by
  rcases exec_boundary_cases hi s with ⟨_, h⟩ | ⟨_, _, -, h⟩ <;> cases h.symm.trans ht <;> cases he
  rfl

/-- An erring ENCB or DECB clears DOUT and consumes the key. -/
theorem eq_of_exec_raw_errcode {i : Instr} {s t : State} {e : CmdError} (hi : i = .encb ∨ i = .decb)
    (ht : exec i s = .next t) (he : t.errcode = some e) : t = keyedEnd (some e) (clearDout s) := by
  obtain ⟨d, hd⟩ : ∃ d, exec i s = keyed clearDout (rawBody d) s := by
    rcases hi with rfl | rfl
    · exact ⟨.encrypt, rfl⟩
    · exact ⟨.decrypt, rfl⟩
  rcases keyed_rawBody d s with ⟨-, h⟩ | ⟨-, h⟩ <;> cases h.symm.trans (hd.symm.trans ht) <;> cases he
  rfl

/-- Settles O17: each command's outcome with an error, and that CLR has none. -/
theorem errorsHaveNoPartialEffect : Obligations.ErrorsHaveNoPartialEffect := by
  refine ⟨fun i s t e ht he => ⟨fun hi => eq_of_exec_boundary_errcode hi ht he,
    fun hi => eq_of_exec_raw_errcode hi ht he, ?_, ?_, ?_⟩, fun s e he => completion_of_error he⟩
  · rintro rfl
    rcases execSel_cases s with ⟨-, h⟩ | ⟨-, h⟩ <;> cases h.symm.trans ht <;> cases he
    rfl
  · rintro rfl
    rcases execRel_cases s with ⟨-, h⟩ | ⟨-, h⟩ <;> cases h.symm.trans ht <;> cases he
    rfl
  · rintro rfl
    cases (execClr_eq s).symm.trans ht
    cases he

end Sys2Proof.Machine
end

section
/-! PROOFS. What only some moves can touch (60_exceptions.md R222, R227): a LIVE slot, and the interrupt output. -/

namespace Sys2Proof.Machine

/-! ### LIVE slots (R222) -/

/-- A command that changes a LIVE slot is REL of a live handle of that slot, or CLR: an allocation takes a FREE slot. -/
theorem exec_changes_live_slot {i : Instr} {s t : State} {j : Nat} {sl : Slot} (ht : exec i s = .next t)
    (hj : s.slots[j]? = some sl) (hl : sl.state = .live) (hne : t.slots[j]? ≠ some sl) :
    (i = .rel ∧ live s s.harg = true ∧ handleSlot s.harg = j) ∨ i = .clr := by
  have hfree : freeSlot s ≠ some j := fun hf => by
    obtain ⟨hlt, hfree, -⟩ := freeSlot_some hf
    rw [List.getElem?_eq_getElem hlt] at hj
    cases hj
    cases hfree.symm.trans hl
  rw [← hj] at hne
  cases i with
  | enc | dec =>
    obtain ⟨-, -, -, -, -, -, -, -, -, -, -, hslots, -⟩ :=
      boundaryCommandsLeaveTheRestUnchanged _ s t (by simp) ht
    exact absurd (hslots j hfree) hne
  | encb | decb =>
    obtain ⟨-, -, -, -, -, -, -, hslots, -⟩ := rawCommandsLeaveTheRestUnchanged _ s t (by simp) ht
    exact absurd (by rw [hslots]) hne
  | sel =>
    obtain ⟨-, -, -, -, -, -, -, -, -, -, -, -, -, -, hslots, -⟩ :=
      handleCommandsLeaveTheRestUnchanged .sel s t (.inl rfl) ht
    exact absurd (hslots j (.inl rfl)) hne
  | rel =>
    obtain ⟨-, -, -, -, -, -, -, -, -, -, -, -, -, -, hslots, -⟩ :=
      handleCommandsLeaveTheRestUnchanged .rel s t (.inr rfl) ht
    by_contra! hn
    by_cases hlive : live s s.harg = true
    · exact hne (hslots j (.inr (.inr fun hje => hn.1 rfl hlive hje.symm)))
    · exact hne (hslots j (.inr (.inl (by simpa using hlive))))
  | clr => exact .inr rfl

@[simp] theorem wbyte_slots (o : Nat) (b : Byte) (s : State) : (wbyte o b s).slots = s.slots := by
  rw [(wbyte_same o b s).eq]

@[simp] theorem wword_slots (a : Nat) (w : Word) (s : State) : (wword a w s).slots = s.slots := by
  rw [(wword_same a w s).eq]

theorem ctrlWrite_slots (o : Nat) (w : Word) (s : State) : (ctrlWrite o w s).slots = s.slots := by
  rcases ctrlWrite_cases o w s with ⟨-, e⟩ | ⟨-, e⟩ | ⟨-, -, e⟩ | ⟨-, -, e⟩ | ⟨-, -, e⟩ | ⟨-, -, e⟩ | ⟨-, -, e⟩ |
    ⟨-, -, -, e⟩ <;> rw [e] <;> rfl

/-- No transaction writes the slot file (20_memory.md R75, R77). -/
@[simp] theorem hostStep_slots (x : Xact) (s : State) : (hostStep x s).slots = s.slots := by
  show (applyXact x s).slots = s.slots
  rcases applyXact_cases x s with e | ⟨o, w, -, -, -, e⟩ | ⟨o, w, -, -, -, e⟩ | ⟨o, w, -, -, e⟩ <;> rw [e]
  · exact ctrlWrite_slots _ _ _
  · exact wword_slots _ _ _
  · exact wbyte_slots _ _ _

/-- Settles O28: of the agents' moves only a completion and the assertion of reset write the slot file. -/
theorem liveSlotsChangeOnlyByReleaseClearOrReset : Obligations.LiveSlotsChangeOnlyByReleaseClearOrReset := by
  intro s t j sl ht hj hl hne
  cases stepsTo_of_step ht with
  | completion hb hr hn h =>
    have hm := sequencerMoves_iff.2 ⟨hb, hr, hn⟩
    cases hd : decode s.pcmd with
    | ok i =>
      rw [completion_of_ok (s := s.pop) hd] at h
      rcases exec_changes_live_slot (s := s.pop) h hj hl hne with ⟨rfl, hlive, hslot⟩ | rfl
      · exact .inl ⟨⟨hm, hd⟩, hlive, hslot⟩
      · exact .inr (.inl ⟨hm, hd⟩)
    | error e =>
      cases (completion_of_error (s := s.pop) hd).symm.trans h
      exact absurd hj hne
  | host x hr hn h =>
    rw [h, hostStep_slots] at hne
    exact absurd hj hne
  | assertReset hn h => exact .inr (.inr (resetMoves_iff.2 hn))
  | deassertReset hn h | idle hi hn h =>
    rw [h] at hne
    exact absurd hj hne

/-! ### The interrupt output (R227) -/

/-- No command writes CTRL: CLR keeps it too (43_commands.md R198). -/
theorem exec_irqEn {i : Instr} {s t : State} (ht : exec i s = .next t) : t.irqEn = s.irqEn := by
  cases i with
  | enc | dec =>
    obtain ⟨-, hirq, -⟩ := boundaryCommandsLeaveTheRestUnchanged _ s t (by simp) ht
    exact hirq
  | encb | decb =>
    obtain ⟨-, hirq, -⟩ := rawCommandsLeaveTheRestUnchanged _ s t (by simp) ht
    exact hirq
  | sel | rel =>
    obtain ⟨-, hirq, -⟩ := handleCommandsLeaveTheRestUnchanged _ s t (by simp) ht
    exact hirq
  | clr =>
    cases (execClr_eq s).symm.trans ht
    rfl

theorem completion_irqEn {s t : State} (ht : completion s = .next t) : t.irqEn = s.irqEn := by
  cases hd : decode s.pcmd with
  | ok i => exact exec_irqEn ((completion_of_ok hd).symm.trans ht)
  | error e =>
    cases (completion_of_error hd).symm.trans ht
    rfl

theorem irq_of_done {s : State} (h : s.done = true) : irq s = s.irqEn := by simp [irq, h]

theorem irq_of_not_done {s : State} (h : s.done = false) : irq s = false := by simp [irq, h]

/-- Settles O35: a completion sets DONE and leaves IRQ_EN; the other moves named clear DONE. -/
theorem interruptFollowsDoneAndEnable : Obligations.InterruptFollowsDoneAndEnable := by
  refine fun s t => ⟨rfl, fun hm ht => ?_, fun w hm hw ht => ?_, fun w hm hb ht => ?_, fun hm ht => ?_⟩
  · rw [step_of_sequencerMoves hm] at ht
    obtain ⟨e, hend, -⟩ := commandEnd_of_completion ht
    exact (irq_of_done hend.done).trans (completion_irqEn (s := s.pop) ht)
  · cases (step_of_hostMoves hm).symm.trans ht
    exact irq_of_not_done ((applyXact_done _ s.pop).2 (.inr (.inr ⟨w, rfl, hw⟩)))
  · cases (step_of_hostMoves hm).symm.trans ht
    exact irq_of_not_done ((applyXact_done _ s.pop).2 (.inr (.inl ⟨hb, w, rfl⟩)))
  · rw [step_eq_takeTurn, resetMoves_iff.1 hm] at ht
    cases ht
    rfl

end Sys2Proof.Machine
end

section
/-! PROOFS. Generations, the selection, the end of BUSY and the reset input (70_reset_and_hazards.md R250, R260 to
R263). -/

namespace Sys2Proof.Machine

/-! ### Generations (R260) -/

/-- Numbered from 0, the generations other than 0 are counted modulo their number, 2^28 - 1. -/
theorem toNat_nextGen (g : Gen) : (nextGen g).toNat = g.toNat % (2 ^ 28 - 1) + 1 := by
  unfold nextGen
  split <;> bv_omega

theorem toNat_iterate_nextGen {g : Gen} (hg : g ≠ 0) (n : Nat) :
    (nextGen^[n] g).toNat = (g.toNat - 1 + n) % (2 ^ 28 - 1) + 1 := by
  induction n with
  | zero =>
    have hpos : g.toNat ≠ 0 := BitVec.toNat_ne.1 hg
    have := g.isLt
    rw [Function.iterate_zero_apply]
    omega
  | succ n ih =>
    rw [Function.iterate_succ_apply', toNat_nextGen, ih]
    omega

/-- Settles O29: `n` allocations add `n` modulo 2^28 - 1 to the number of a generation. -/
theorem generationsRepeatOnlyAfterTheWrap : Obligations.GenerationsRepeatOnlyAfterTheWrap := by
  refine fun g => ⟨nextGen_ne_zero g, fun hg => ?_⟩
  have hpos : g.toNat ≠ 0 := BitVec.toNat_ne.1 hg
  have hlt := g.isLt
  refine ⟨BitVec.eq_of_toNat_eq ?_, fun n hn hn' he => ?_⟩
  · rw [toNat_iterate_nextGen hg]
    omega
  · have hnat := congrArg BitVec.toNat he
    rw [toNat_iterate_nextGen hg] at hnat
    omega

/-! ### The selection (R261) -/

/-- What a command can do to the selection: SEL of a live handle sets it, CLR takes it away, and every other outcome
sets no SELV and leaves SELH. -/
theorem exec_selection {i : Instr} {s t : State} (ht : exec i s = .next t) :
    ((t.selv = true → s.selv = true) ∧ t.selh = s.selh) ∨ (i = .clr ∧ t.selv = false) ∨
    (i = .sel ∧ live s s.harg = true ∧ t.selh = s.harg) := by
  cases i with
  | enc | dec =>
    obtain ⟨-, -, -, -, -, hselv, hselh, -⟩ := boundaryCommandsLeaveTheRestUnchanged _ s t (by simp) ht
    exact .inl ⟨hselv ▸ id, hselh⟩
  | encb | decb =>
    obtain ⟨-, -, -, -, -, -, -, -, hselv, hselh, -⟩ := rawCommandsLeaveTheRestUnchanged _ s t (by simp) ht
    exact .inl ⟨hselv ▸ id, hselh⟩
  | sel =>
    rcases execSel_cases s with ⟨hl, e⟩ | ⟨-, e⟩ <;> cases e.symm.trans ht
    · exact .inr (.inr ⟨rfl, hl, rfl⟩)
    · exact .inl ⟨nofun, rfl⟩
  | rel =>
    rcases execRel_cases s with ⟨-, e⟩ | ⟨-, e⟩ <;> cases e.symm.trans ht
    · exact .inl ⟨Bool.and_elim_left, rfl⟩
    · exact .inl ⟨id, rfl⟩
  | clr =>
    cases (execClr_eq s).symm.trans ht
    exact .inr (.inl ⟨rfl, rfl⟩)

/-- No transaction writes the selection (20_memory.md R75, R77). -/
theorem hostStep_selection (x : Xact) (s : State) : (hostStep x s).selv = s.selv ∧ (hostStep x s).selh = s.selh := by
  show (applyXact x s).selv = s.selv ∧ (applyXact x s).selh = s.selh
  rcases applyXact_cases x s with e | ⟨o, w, -, -, -, e⟩ | ⟨o, w, -, -, -, e⟩ | ⟨o, w, -, -, e⟩ <;> rw [e]
  · exact ⟨rfl, rfl⟩
  · rcases ctrlWrite_cases o.toNat w s with ⟨-, e⟩ | ⟨-, e⟩ | ⟨-, -, e⟩ | ⟨-, -, e⟩ | ⟨-, -, e⟩ | ⟨-, -, e⟩ |
      ⟨-, -, e⟩ | ⟨-, -, -, e⟩ <;> rw [e] <;> exact ⟨rfl, rfl⟩
  · rw [(wword_same _ _ _).eq]
    exact ⟨rfl, rfl⟩
  · rw [(wbyte_same _ _ _).eq]
    exact ⟨rfl, rfl⟩

/-- What a step can do to the selection: that of the command it completes, or the reset input's. -/
theorem step_selection {s t : State} (ht : step s = .next t) :
    ((t.selv = true → s.selv = true) ∧ t.selh = s.selh) ∨
    ((completes .clr s ∨ s.turns.head? = some .assertReset) ∧ t.selv = false) ∨
    (completes .sel s ∧ live s s.harg = true ∧ t.selh = s.harg) := by
  cases stepsTo_of_step ht with
  | completion hb hr hn h =>
    have hm := sequencerMoves_iff.2 ⟨hb, hr, hn⟩
    cases hd : decode s.pcmd with
    | ok i =>
      rw [completion_of_ok (s := s.pop) hd] at h
      rcases exec_selection h with hkeep | ⟨rfl, hselv⟩ | ⟨rfl, hsel⟩
      · exact .inl hkeep
      · exact .inr (.inl ⟨.inl ⟨hm, hd⟩, hselv⟩)
      · exact .inr (.inr ⟨⟨hm, hd⟩, hsel⟩)
    | error e =>
      cases (completion_of_error (s := s.pop) hd).symm.trans h
      exact .inl ⟨id, rfl⟩
  | host x hr hn h =>
    obtain ⟨hselv, hselh⟩ := hostStep_selection x s.pop
    rw [h]
    exact .inl ⟨hselv ▸ id, hselh⟩
  | assertReset hn h =>
    rw [h]
    exact .inr (.inl ⟨.inr (resetMoves_iff.2 hn), rfl⟩)
  | deassertReset hn h | idle hi hn h =>
    rw [h]
    exact .inl ⟨id, rfl⟩

/-- With no selection the OBUF window reads 0 (10_state.md R41). -/
theorem replyOf_window_of_not_selv {s : State} {o : Offset} (hs : s.selv = false) (ho : 0x800 ≤ o.toNat) :
    replyOf s (.read o .one) = .read 0 .okay := by
  rw [replyOf_read_byte s (by omega), rbyte_window ho, if_neg (by simp [hs])]
  rfl

theorem selv_of_exec_rel {s t : State} (ht : exec .rel s = .next t) (hh : s.selh = s.harg)
    (hl : live s s.harg = true) : t.selv = false := by
  rcases execRel_cases s with ⟨-, e⟩ | ⟨hl', -⟩
  · cases e.symm.trans ht
    simp [hh]
  · cases hl'.symm.trans hl

/-- Settles O30: REL deselects the handle it releases, and of all a step can do to the selection only SEL of a live
handle sets SELV. -/
theorem onlySelSelects : Obligations.OnlySelSelects := by
  refine fun s t ht => ⟨fun hc _ hh hl => ?_, fun hs hs' => ?_, fun hne => ?_⟩
  · have hrel : exec .rel s.pop = .next t := (completionStepRunsTheCommandInPcmd s .rel hc).symm.trans ht
    have hselv := selv_of_exec_rel hrel hh hl
    exact ⟨hselv, fun o ho => replyOf_window_of_not_selv hselv ho⟩
  · rcases step_selection ht with ⟨hkeep, -⟩ | ⟨-, hselv⟩ | hsel
    · cases hs.symm.trans (hkeep hs')
    · cases hselv.symm.trans hs'
    · exact hsel
  · rcases step_selection ht with ⟨-, hselh⟩ | ⟨hclr, -⟩ | ⟨hsel, -⟩
    · exact absurd hselh hne
    · exact .inr hclr
    · exact .inl hsel

/-! ### The reset input (R250) -/

theorem step_of_assertReset {s : State} (hn : nextTurn s = .assertReset) :
    step s = .next { resetBlock s.pop with inReset := true } := by
  rw [step_eq_takeTurn, hn, takeTurn]

theorem step_of_deassertReset {s : State} (hn : nextTurn s = .deassertReset) :
    step s = .next { s.pop with inReset := false } := by
  rw [step_eq_takeTurn, hn, takeTurn]

/-- Settles O11: the assertion writes the reset values, a transaction is then a stop, and by the invariant the values
still stand when the input is deasserted. -/
theorem hardwareResetDropsTheCommandInFlight : Obligations.HardwareResetDropsTheCommandInFlight := by
  refine fun s => ⟨fun ht => step_of_assertReset (resetMoves_iff.1 ht), fun hr hx => ?_, fun hinv hr ht => ?_⟩
  · obtain ⟨hfault, -⟩ := onlyTheOutsideWorldStopsTheMachine s
    exact (hfault _).2 ⟨rfl, hr, hx⟩
  · have hpop : s.pop = { State.resetOf s.cfg with
        inReset := true, turns := s.turns.tail, replies := s.replies } := congrArg State.pop (hinv.reset hr)
    rw [step_of_deassertReset ((nextTurn_eq_iff (by simp)).2 ht), hpop]
    rfl

/-! ### The end of BUSY (R262, R263) -/

/-- The step of a busy block ends the command, or takes a turn that is not the sequencer's and leaves the block as busy
as it was. -/
theorem step_of_busy {s : State} (hb : s.busy = true) (hr : s.inReset = false)
    (hf : ∀ h, nextTurn s ≠ .freeElsewhere h) :
    ∃ t, step s = .next t ∧
      (t.busy = false ∨ (nextTurn s ≠ .core ∧ t.busy = true ∧ t.inReset = false ∧ t.turns = s.turns.tail)) := by
  cases hn : nextTurn s with
  | core =>
    obtain ⟨t, ht, hidle, -⟩ := completion_ends s.pop
    exact ⟨t, (step_of_sequencerMoves (sequencerMoves_iff.2 ⟨hb, hr, hn⟩)).trans ht, .inl hidle⟩
  | host x =>
    refine ⟨_, step_eq_applyXact (hostMoves_iff.2 ⟨hr, hn⟩), .inr ⟨nofun, ?_, ?_, rfl⟩⟩
    · exact (applyXact_busy x s).2 (.inl hb)
    · exact (applyXact_keeps x s).2.trans hr
  | assertReset => exact ⟨_, step_of_assertReset hn, .inl rfl⟩
  | deassertReset => exact ⟨_, step_of_deassertReset hn, .inr ⟨nofun, hb, rfl, rfl⟩⟩
  | freeElsewhere h => exact absurd hn (hf h)

/-- Settles O58, by induction on the moves to come: each takes one step, and where none is left the sequencer moves. -/
theorem busyEndsWithinTheTurnsListed : Obligations.BusyEndsWithinTheTurnsListed := by
  intro s hb hr hf
  induction hts : s.turns generalizing s with
  | nil =>
    have hcore : nextTurn s = .core := nextTurn_eq_core_iff.2 (.inl hts)
    obtain ⟨t, ht, hidle | ⟨hn, -⟩⟩ := step_of_busy hb hr (by simp [hcore])
    · exact ⟨1, t, le_rfl, run_one (M := Sys2Proof.core) ht, hidle⟩
    · exact absurd hcore hn
  | cons m rest ih =>
    have hm : nextTurn s = m := by simp [nextTurn, hts]
    obtain ⟨t, ht, hidle | ⟨-, hb', hr', hts'⟩⟩ :=
      step_of_busy hb hr fun h he => hf h (by simp [hts, ← he, hm])
    · exact ⟨1, t, by simp, run_one (M := Sys2Proof.core) ht, hidle⟩
    · have hrest : t.turns = rest := hts'.trans (congrArg List.tail hts)
      obtain ⟨k, u, hk, hrun, hidle⟩ := ih t hb' hr' (fun h hmem => hf h (by simp [hts, hrest ▸ hmem])) hrest
      exact ⟨k + 1, u, by simpa using hk, (run_succ (M := Sys2Proof.core) ht k).trans hrun, hidle⟩

end Sys2Proof.Machine
end
